-- ==== Sys2Proof/Word.lean ====
section
/-! DEFINITION. The words of the OWC (00_scope.md R8, R10): 32-bit registers and command words, 8-bit data,
the 16-bit raw temperature. Bit 0 is the least significant bit. -/
namespace Sys2Proof

/-- A host register, a command word, TIME: 32 bits (R8). -/
abbrev Word := BitVec 32

/-- The framer's data: 8 bits (R8). -/
abbrev Byte := BitVec 8

/-- The decoder's raw value: 16 bits (R8). -/
abbrev Raw := BitVec 16

end Sys2Proof
end

