-- ==== Sys2Proof/Syntax.lean ====
section
/-! DEFINITION. The commands of the OWC (30_encoding.md R81, R82): one constructor per row of the opcode table, its
operands at their widths; and the assembler's form of them (R87), whose operands are plain numbers. -/
namespace Sys2Proof

/-- A command with its operands (30_encoding.md R81, R82). -/
inductive Instr where
  /-- DELAY N (40_timing.md R106). -/
  | delay (n : BitVec 16)
  /-- WRITE_BIT b (41_bit_slots.md R120); true is 1. -/
  | writeBit (b : Bool)
  /-- READ_BIT (41_bit_slots.md R122). -/
  | readBit
  /-- WRITE_BYTE D (42_byte_framer.md R140). -/
  | writeByte (d : Byte)
  /-- READ_BYTE (42_byte_framer.md R142). -/
  | readByte
  /-- RESET (43_init.md R160). -/
  | reset
  /-- PRESENCE (43_init.md R166). -/
  | presence
  /-- INIT (43_init.md R170). -/
  | init
  /-- DECODE TH, TL (45_decoder.md R210). -/
  | decode (th tl : Byte)
  deriving DecidableEq, Repr

/-- A line of the assembler (30_encoding.md R87): a command whose operands are numbers as written. -/
inductive Asm where
  /-- `DELAY n` -/
  | delay (n : Nat)
  /-- `WRITE_BIT b` -/
  | writeBit (b : Nat)
  /-- `READ_BIT` -/
  | readBit
  /-- `WRITE_BYTE d` -/
  | writeByte (d : Nat)
  /-- `READ_BYTE` -/
  | readByte
  /-- `RESET` -/
  | reset
  /-- `PRESENCE` -/
  | presence
  /-- `INIT` -/
  | init
  /-- `DECODE th, tl` -/
  | decode (th tl : Nat)
  deriving DecidableEq, Repr

end Sys2Proof
end

