-- ==== Sys2Proof/WellFormed.lean ====
section
/-! DEFINITION. Well-formedness. The operands of Instr have the widths of 30_encoding.md R81 by their types; the
assembler's lines are checked here against the ranges of R87. -/
namespace Sys2Proof

/-- The ranges of 30_encoding.md R87: `DELAY n` with n ≤ 65535, `WRITE_BIT b` with b in {0, 1}, bytes up to 0xFF. -/
def Asm.wellFormed : Asm → Bool
  | .delay n => n ≤ 65535
  | .writeBit b => b ≤ 1
  | .writeByte d => d ≤ 0xFF
  | .decode th tl => th ≤ 0xFF && tl ≤ 0xFF
  | .readBit => true
  | .readByte => true
  | .reset => true
  | .presence => true
  | .init => true

/-- A command as the assembler writes it. -/
def Instr.toAsm : Instr → Asm
  | .delay n => .delay n.toNat
  | .writeBit b => .writeBit b.toNat
  | .readBit => .readBit
  | .writeByte d => .writeByte d.toNat
  | .readByte => .readByte
  | .reset => .reset
  | .presence => .presence
  | .init => .init
  | .decode th tl => .decode th.toNat tl.toNat

/-- A command is well formed when the assembler admits it. -/
def Instr.wellFormed (i : Instr) : Bool := i.toAsm.wellFormed

end Sys2Proof
end

