-- ==== Sys2Proof/Decode.lean ====
section
/-! DEFINITION. From a 32-bit word to a command and back (30_encoding.md R80 to R87): the rows of the opcode table,
the total decoder of R85, the encoder of R87, the assembler, and the byte lanes of 20_memory.md R64. -/
namespace Sys2Proof

/-- A row of the opcode table: the bits that are fixed, and their values (30_encoding.md R83). -/
structure Row where
  mask : Word
  pattern : Word
  deriving DecidableEq, Repr

/-- A word spells a row's command exactly when its fixed bits are the row's (30_encoding.md R83). -/
def Word.spells (w : Word) (r : Row) : Bool := w &&& r.mask == r.pattern

def rowDelay     : Row := ⟨0xFF0000FF, 0x00000001⟩
def rowWriteBit  : Row := ⟨0xFFFFFEFF, 0x00000002⟩
def rowReadBit   : Row := ⟨0xFFFFFFFF, 0x00000003⟩
def rowWriteByte : Row := ⟨0xFFFF00FF, 0x00000004⟩
def rowReadByte  : Row := ⟨0xFFFFFFFF, 0x00000005⟩
def rowReset     : Row := ⟨0xFFFFFFFF, 0x00000006⟩
def rowPresence  : Row := ⟨0xFFFFFFFF, 0x00000007⟩
def rowInit      : Row := ⟨0xFFFFFFFF, 0x00000008⟩
def rowDecode    : Row := ⟨0xFF0000FF, 0x00000009⟩

/-- The opcode table in the order of 30_encoding.md R83. -/
def opcodeTable : List Row :=
  [rowDelay, rowWriteBit, rowReadBit, rowWriteByte, rowReadByte, rowReset, rowPresence, rowInit, rowDecode]

/-- OP, bits [3:0] (30_encoding.md R80). -/
def opField (w : Word) : BitVec 4 := w.extractLsb' 0 4
/-- Z0, bits [7:4], reserved (30_encoding.md R80). -/
def z0Field (w : Word) : BitVec 4 := w.extractLsb' 4 4
/-- Z1, bits [31:24], reserved (30_encoding.md R80). -/
def z1Field (w : Word) : BitVec 8 := w.extractLsb' 24 8
/-- N = w[23:8] (30_encoding.md R84). -/
def nField (w : Word) : BitVec 16 := w.extractLsb' 8 16
/-- b = w[8] (30_encoding.md R84). -/
def bField (w : Word) : Bool := w.getLsbD 8
/-- D = w[15:8], and DECODE's TL (30_encoding.md R84). -/
def dField (w : Word) : Byte := w.extractLsb' 8 8
/-- TH = w[23:16] (30_encoding.md R84). -/
def thField (w : Word) : Byte := w.extractLsb' 16 8

/-- Why a word, or a string of bytes, is no command (30_encoding.md R85, R86). The OWC tells none apart (DESIGN CHOICE, log 15). -/
inductive Illegal where
  /-- OP is 0x0 or 0xA to 0xF. -/
  | opcode (op : BitVec 4)
  /-- OP is a command's, and a bit that must be 0 is 1. -/
  | reservedBit (op : BitVec 4)
  /-- Not the four bytes of one word. -/
  | length (bytes : Nat)
  deriving DecidableEq, Repr

/-- The reason a word that spells no command is illegal (30_encoding.md R85). -/
def illegalReason (w : Word) : Illegal :=
  if 1 ≤ (opField w).toNat ∧ (opField w).toNat ≤ 9 then .reservedBit (opField w) else .opcode (opField w)

/-- The decoder of 30_encoding.md R85, total on all 2^32 words. -/
def decode (w : Word) : Except Illegal Instr :=
  if w.spells rowDelay then .ok (.delay (nField w))
  else if w.spells rowWriteBit then .ok (.writeBit (bField w))
  else if w.spells rowReadBit then .ok .readBit
  else if w.spells rowWriteByte then .ok (.writeByte (dField w))
  else if w.spells rowReadByte then .ok .readByte
  else if w.spells rowReset then .ok .reset
  else if w.spells rowPresence then .ok .presence
  else if w.spells rowInit then .ok .init
  else if w.spells rowDecode then .ok (.decode (thField w) (dField w))
  else .error (illegalReason w)

/-- `enc` of 30_encoding.md R87. -/
def encode : Instr → Word
  | .delay n => n.setWidth 32 <<< 8 ||| 0x1
  | .writeBit b => (BitVec.ofBool b).setWidth 32 <<< 8 ||| 0x2
  | .readBit => 0x3
  | .writeByte d => d.setWidth 32 <<< 8 ||| 0x4
  | .readByte => 0x5
  | .reset => 0x6
  | .presence => 0x7
  | .init => 0x8
  | .decode th tl => th.setWidth 32 <<< 16 ||| tl.setWidth 32 <<< 8 ||| 0x9

/-- The command an assembler line stands for; none where an operand is out of range, which is an assembly error
and never a truncation (30_encoding.md R87). -/
def Asm.toInstr (a : Asm) : Option Instr :=
  if a.wellFormed then
    match a with
    | .delay n => some (.delay (.ofNat 16 n))
    | .writeBit b => some (.writeBit (b == 1))
    | .readBit => some .readBit
    | .writeByte d => some (.writeByte (.ofNat 8 d))
    | .readByte => some .readByte
    | .reset => some .reset
    | .presence => some .presence
    | .init => some .init
    | .decode th tl => some (.decode (.ofNat 8 th) (.ofNat 8 tl))
  else none

/-- The word an assembler line stands for (30_encoding.md R87). -/
def Asm.assemble (a : Asm) : Option Word := a.toInstr.map encode

/-- The four bytes of a word, byte k its bits [8k+7:8k] (20_memory.md R64). -/
def wordBytes (w : Word) : List Byte :=
  [w.extractLsb' 0 8, w.extractLsb' 8 8, w.extractLsb' 16 8, w.extractLsb' 24 8]

/-- Decoding of any string of bytes: a command is exactly one word of four bytes (30_encoding.md R86,
20_memory.md R64). -/
def decodeBytes : List Byte → Except Illegal Instr
  | [b0, b1, b2, b3] => decode (b3 ++ b2 ++ b1 ++ b0)
  | bs => .error (.length bs.length)

/-- The word whose bits are w's low nbits, the bits above them 0. -/
def tableWord (nbits w : Nat) : Word := .ofNat 32 (w % 2 ^ nbits)

/-- What the decoder reads from an instruction of the opcode table whose bits are w. A command has 32 bits
(30_encoding.md R80): a longer one is refused, a shorter one has zeros above. -/
def decodeTableWord (nbits w : Nat) : Option Instr :=
  if nbits ≤ 32 then
    match decodeBytes (wordBytes (tableWord nbits w)) with
    | .ok i => some i
    | .error _ => none
  else none

end Sys2Proof
end

