-- ==== Sys2Proof/Config.lean ====
section
/-! DEFINITION. What one instance of the OWC fixes: the parameters of 00_scope.md R6, and the values the spec leaves
open (F_CLK_HZ, BASE, the level of a released line), which have no value here. -/
namespace Sys2Proof.Config

/-- The durations and bounds of R6, in ticks or samples, and the divider. A model takes each as an argument: State
holds one of these, no step changes it (70_reset_and_hazards.md R279). -/
structure Params where
  /-- T_RST_LOW: reset pulse low time. -/
  tRstLow : Nat
  /-- T_RST_WAIT: release time after the reset pulse. -/
  tRstWait : Nat
  /-- N_PRES_HIGH: bound of presence phase A, in samples. -/
  nPresHigh : Nat
  /-- N_PRES_LOW: bound of presence phase B, in samples. -/
  nPresLow : Nat
  /-- T_W1_LOW: write-1 slot low time. -/
  tW1Low : Nat
  /-- T_W1_HIGH: write-1 slot release time. -/
  tW1High : Nat
  /-- T_W0_LOW: write-0 slot low time. -/
  tW0Low : Nat
  /-- T_W0_HIGH: write-0 slot release time. -/
  tW0High : Nat
  /-- T_R_LOW: read slot low time. -/
  tRLow : Nat
  /-- T_R_SAMPLE: release-to-sample time in a read slot. -/
  tRSample : Nat
  /-- T_R_PAD: sample-to-end time in a read slot. -/
  tRPad : Nat
  /-- T_RB_REC: recovery after each read slot of READ_BYTE. -/
  tRbRec : Nat
  /-- T_WB_GAP: extra gap after each write slot of WRITE_BYTE. -/
  tWbGap : Nat
  /-- TICK_DIV less its default, the ceiling of F_CLK_HZ / 1 000 000 (R6, R7; DEDUCED, log 6). -/
  tickDivExtra : Nat
  deriving DecidableEq, Repr

/-- OPEN (R6, 93_implementation_defined.md U9): F_CLK_HZ less one, so that the frequency is positive. -/
opaque clkHzLessOne : Nat

/-- OPEN (R6, 93_implementation_defined.md U10): BASE divided by 32. -/
opaque baseBlock : Nat

/-- FREE VALUE (R9, R13, 93_implementation_defined.md U3): the k-th level of the released line that the model draws
where the schedule of inputs names none; true is 1 (DESIGN CHOICE, log 2). -/
opaque freeLevel : Nat → Bool

end Sys2Proof.Config
end

