-- ==== Sys2Proof/Machine/Parameters.lean ====
section
/-! DEFINITION. The default instance of the OWC, the constraints of a legal one, and the clock divider
(00_scope.md R6, R7, 40_timing.md R100). -/
namespace Sys2Proof.Config

/-- The defaults of 00_scope.md R6. -/
def Params.default : Params where
  tRstLow := 750
  tRstWait := 15
  nPresHigh := 200
  nPresLow := 240
  tW1Low := 2
  tW1High := 60
  tW0Low := 60
  tW0High := 2
  tRLow := 2
  tRSample := 5
  tRPad := 53
  tRbRec := 2
  tWbGap := 0
  tickDivExtra := 0

/-- The (low, high) durations of a write slot for bit b (41_bit_slots.md R120, R124). -/
def Params.writeShape (p : Params) (b : Bool) : Nat × Nat :=
  if b then (p.tW1Low, p.tW1High) else (p.tW0Low, p.tW0High)

/-- slot(b) of 40_timing.md R105. -/
def Params.writeSlot (p : Params) (b : Bool) : Nat := (p.writeShape b).1 + (p.writeShape b).2

/-- The (low, high) durations of a read slot (41_bit_slots.md R124). -/
def Params.readShape (p : Params) : Nat × Nat := (p.tRLow, p.tRSample + p.tRPad)

/-- The length of a read slot (41_bit_slots.md R123). -/
def Params.readSlot (p : Params) : Nat := p.tRLow + p.tRSample + p.tRPad

/-- The (low, high) durations of the reset pulse (41_bit_slots.md R124). -/
def Params.resetShape (p : Params) : Nat × Nat := (p.tRstLow, p.tRstWait)

/-- The offset of the presence part in INIT, and RESET's length (43_init.md R170, R161). -/
def Params.resetPart (p : Params) : Nat := p.tRstLow + p.tRstWait

/-- The constraints of 00_scope.md R7 on the durations, in its order. Its constraint on the clock (TICK_DIV ≥ 1, and
a tick of at least 1 µs) holds of every `tickDiv`, which is the ceiling or more. -/
abbrev Params.Legal (p : Params) : Prop :=
  480 ≤ p.tRstLow ∧
  60 ≤ p.tW1Low + p.tW1High ∧ 60 ≤ p.tW0Low + p.tW0High ∧
  1 ≤ p.tW0Low ∧
  1 ≤ p.tW1Low ∧ p.tW1Low < 15 ∧
  1 ≤ p.tW0High + p.tWbGap ∧ 1 ≤ p.tW1High + p.tWbGap ∧
  1 ≤ p.tRLow ∧ p.tRLow + p.tRSample < 15 ∧
  p.tRLow + p.tRSample + p.tRPad = 60 ∧
  1 ≤ p.tRbRec ∧
  1 ≤ p.nPresHigh ∧ 2 ≤ p.nPresLow ∧
  8 * max (p.writeSlot false) (p.writeSlot true) + 8 * p.tWbGap ≤ 65535 ∧
  8 * (p.tRLow + p.tRSample + p.tRPad + p.tRbRec) ≤ 65535 ∧
  p.tRstLow + p.tRstWait + p.nPresHigh - 1 + p.nPresLow ≤ 65535

/-- F_CLK_HZ: any positive frequency (00_scope.md R6). -/
def fClkHz : Nat := clkHzLessOne + 1

/-- The default of TICK_DIV, ceil(F_CLK_HZ / 1 000 000) (00_scope.md R6, 40_timing.md R100), the ceiling of a positive
quotient. -/
def tickDivDefault : Nat := (fClkHz - 1) / 1000000 + 1

/-- TICK_DIV, the `clk` cycles of a tick (00_scope.md R6; DEDUCED, log 6): the values that R7 allows are those from the
default on. -/
def Params.tickDiv (p : Params) : Nat := tickDivDefault + p.tickDivExtra

/-- BASE, a multiple of 32 (20_memory.md R61). -/
def base : Nat := 32 * baseBlock

end Sys2Proof.Config
end

