-- ==== Sys2Proof/Machine/State.lean ====
section
/-! DEFINITION. The state of the OWC as plain data (10_state.md R20 to R50), the moves of its surroundings that a step
takes (00_scope.md R9), and the state after block reset. -/
namespace Sys2Proof.Machine

/-- The controller's state (10_state.md R40). -/
inductive Fsm where
  | idle
  | run
  deriving DecidableEq, Repr

/-- The line output OUT: `dq_pull` = 1, or 0 (10_state.md R41). The OWC never drives high. -/
inductive LineOut where
  | low
  | released
  deriving DecidableEq, Repr

/-- The presence detector's phase (10_state.md R45): A waits for the line to go low, B for its release. -/
inductive Phase where
  | a
  | b
  deriving DecidableEq, Repr

/-- The codes of STATUS.ERR (60_exceptions.md R230); 5 to 15 are never produced. -/
inductive ErrCode where
  | none
  | nopresHigh
  | nopresLow
  | illegal
  | notInit
  deriving DecidableEq, Repr

/-- A host access to the register window (20_memory.md R62, R63): `off` is its byte offset from BASE, `bytes` its width,
`wdata` the value of a write, none for a read. -/
structure Access where
  off : Nat
  bytes : Nat
  wdata : Option Word
  deriving DecidableEq, Repr

/-- A move of the surroundings (00_scope.md R9). A level is the one a released line has, `Env`, true for 1. -/
inductive Input where
  /-- The rest of the `clk` cycles up to the next tick strobe, and the tick step (40_timing.md R101). -/
  | tick (level : Bool)
  /-- One `clk` cycle with `rst` = 0 (40_timing.md R100). -/
  | clk (level : Bool)
  /-- One host access, between two tick steps (20_memory.md R67). -/
  | access (a : Access)
  /-- One `clk` cycle with `rst` = 1, and the host access made in it, if any (70_reset_and_hazards.md R260, R262). -/
  | rst (a : Option Access)
  deriving DecidableEq, Repr

/-- An entry of the event history (40_timing.md R110): a change of OUT, or a sample, at tick t. -/
inductive Event where
  | out (t : Word) (o : LineOut)
  | sample (t : Word) (level : Bool)
  deriving DecidableEq, Repr

/-- The machine's faults: none. "No fatal/process-terminating errors originate from this core"
(44_host_sequences.md R195, 60_exceptions.md R235); errors are codes of STATUS.ERR. -/
inductive Fault where
  deriving DecidableEq, Repr

/-- Why the model has no step. Every one is safe: the model stops. -/
inductive Refusal where
  /-- Raised by exec for an instruction without a meaning: by none. Safe. -/
  | notModelled (mnemonic : String)
  /-- Raised by step: the parameters break 00_scope.md R7, "A model refuses an illegal parameter set". Safe. -/
  | illegalParameters
  /-- Raised by a host access that is not a whole word of the window, 20_memory.md R62, "A model refuses such an
  access". Safe. -/
  | accessOutsideInterface
  deriving DecidableEq, Repr

/-- The whole state. `busy`, STATUS.BUSY, is read from `fsm` (10_state.md R40). -/
structure State where
  /-- The instance's parameters, which no step changes (00_scope.md R6; DESIGN CHOICE, log 4). -/
  params : Config.Params
  /-- STATUS.DONE (R24). -/
  done : Bool
  /-- STATUS.PRESENT (R25). -/
  present : Bool
  /-- STATUS.OVR (R26). -/
  ovr : Bool
  /-- STATUS.ERR (R27). -/
  err : ErrCode
  /-- CTRL.GATE (R29). -/
  gate : Bool
  /-- RXDATA[7:0]; bits [31:8] have no storage (R31). -/
  rxdata : Byte
  /-- TEMP (R32). -/
  temp : Word
  /-- TIME (R33). -/
  time : Word
  /-- FSM (R40). -/
  fsm : Fsm
  /-- OUT (R41). -/
  out : LineOut
  /-- OPR (R42); none is opcode 0 with operands 0 (DEDUCED, log 11). -/
  opr : Option Instr
  /-- S (R43). -/
  start : Word
  /-- C (R43). -/
  c : BitVec 16
  /-- SH (R44). -/
  sh : Byte
  /-- BI (R44). -/
  bi : BitVec 3
  /-- PH (R45). -/
  ph : Phase
  /-- PK (R45). -/
  pk : Nat
  /-- DIV (R46). -/
  div : Nat
  /-- The variable `bit` of READ_BIT and READ_BYTE between its sample and its use (41_bit_slots.md R122; DESIGN CHOICE,
  log 10). -/
  bit : Bool
  /-- `bus_rdata`: what the last host read returned (R20; DESIGN CHOICE, log 14). -/
  rdata : Word
  /-- The event history, newest first (40_timing.md R110; DESIGN CHOICE, log 13). -/
  history : List Event
  /-- The model's own: the moves still to come, in order (00_scope.md R9; DESIGN CHOICE, log 1). -/
  inputs : List Input
  /-- The model's own: how many free levels have been drawn (DESIGN CHOICE, log 2). -/
  draws : Nat
  deriving DecidableEq, Repr

/-- The state after a block reset (10_state.md R50), of the default instance (00_scope.md R6). -/
def State.reset : State where
  params := Config.Params.default
  done := false
  present := false
  ovr := false
  err := .none
  gate := true
  rxdata := 0
  temp := 0
  time := 0
  fsm := .idle
  out := .released
  opr := none
  start := 0
  c := 0
  sh := 0
  bi := 0
  ph := .a
  pk := 0
  div := 0
  bit := false
  rdata := 0
  history := []
  inputs := []
  draws := 0

end Sys2Proof.Machine
end

