-- ==== Sys2Proof/Machine/Flags.lean ====
section
/-! DEFINITION. The readable words of STATUS and CTRL, the error codes, and what acceptance, completion and a drop do to the
flags (10_state.md R23 to R30, 60_exceptions.md R230). -/
namespace Sys2Proof.Machine

/-- The 4-bit code of 60_exceptions.md R230. -/
def ErrCode.code : ErrCode → BitVec 4
  | .none => 0
  | .nopresHigh => 1
  | .nopresLow => 2
  | .illegal => 3
  | .notInit => 4

/-- STATUS.BUSY: 1 exactly when FSM = Run (10_state.md R40). -/
def State.busy (s : State) : Bool := s.fsm == .run

/-- STATUS: ERR in [7:4], OVR, PRESENT, DONE and BUSY in [3:0], the rest 0 (10_state.md R23 to R28). -/
def State.status (s : State) : Word :=
  (s.err.code ++ BitVec.ofBool s.ovr ++ BitVec.ofBool s.present ++ BitVec.ofBool s.done
    ++ BitVec.ofBool s.busy).setWidth 32

/-- CTRL: GATE in bit 0, the rest 0 (10_state.md R29, R30). -/
def State.ctrl (s : State) : Word := (BitVec.ofBool s.gate).setWidth 32

/-- An accepted command clears OVR, DONE and ERR first (40_timing.md R102). -/
def State.clearFlags (s : State) : State := { s with ovr := false, done := false, err := .none }

/-- A dropped command sets OVR and nothing else (60_exceptions.md R236). -/
def State.drop (s : State) : State := { s with ovr := true }

/-- RESET, PRESENCE and INIT clear PRESENT at acceptance (10_state.md R25). -/
def State.clearPresent (s : State) : State := { s with present := false }

/-- The gate of 60_exceptions.md R238: a bus data command may run when GATE = 0 or PRESENT = 1. -/
def State.gateOpen (s : State) : Bool := !s.gate || s.present

end Sys2Proof.Machine
end

