-- ==== Sys2Proof/Machine/Operands.lean ====
section
/-! DEFINITION. The operand forms: the bits and the raw word that a command's data give (42_byte_framer.md R147,
45_decoder.md R210), and the register an access names (10_state.md R21, 20_memory.md R61, R62). -/
namespace Sys2Proof.Machine

/-- `D[i]`, the bit that the i-th slot carries (42_byte_framer.md R145, R147). -/
def dataBit (d : Byte) (i : Nat) : Bool := d.getLsbD i

/-- `zext_8(bit)` (00_scope.md R10). -/
def bitByte (b : Bool) : Byte := (BitVec.ofBool b).setWidth 8

/-- `TH : TL` (20_memory.md R66). -/
def rawTemp (th tl : Byte) : Raw := th ++ tl

/-- The registers of the window (10_state.md R21). -/
inductive Reg where
  | cmd
  | status
  | ctrl
  | rxdata
  | temp
  | time
  | reserved18
  | reserved1C
  deriving DecidableEq, Repr

/-- The register of a word offset, `bus_addr` (10_state.md R20, R21). -/
def Reg.ofBusAddr (a : BitVec 3) : Reg :=
  match a.toNat with
  | 0 => .cmd
  | 1 => .status
  | 2 => .ctrl
  | 3 => .rxdata
  | 4 => .temp
  | 5 => .time
  | 6 => .reserved18
  | _ => .reserved1C

/-- A register's byte offset (10_state.md R21). -/
def Reg.offset : Reg → Nat
  | .cmd => 0x00
  | .status => 0x04
  | .ctrl => 0x08
  | .rxdata => 0x0C
  | .temp => 0x10
  | .time => 0x14
  | .reserved18 => 0x18
  | .reserved1C => 0x1C

/-- A 32-bit access at a multiple of 4 in the window of 32 bytes (20_memory.md R61, R62; DESIGN CHOICE, log 21). -/
def Access.admissible (a : Access) : Bool := a.bytes == 4 && a.off % 4 == 0 && decide (a.off < 32)

/-- `bus_addr` = off / 4 (20_memory.md R61). -/
def Access.busAddr (a : Access) : BitVec 3 := .ofNat 3 (a.off / 4)

/-- The register an admissible access names. -/
def Access.reg (a : Access) : Reg := .ofBusAddr a.busAddr

/-- `RegRead(off)` of a register (20_memory.md R63). -/
def Access.read (r : Reg) : Access := ⟨r.offset, 4, none⟩

/-- `RegWrite(off, v)` of a register (20_memory.md R63). -/
def Access.write (r : Reg) (v : Word) : Access := ⟨r.offset, 4, some v⟩

/-- The access a host makes at an address: its offset is the distance from BASE (20_memory.md R61); none below BASE,
where the window does not lie. -/
def Access.atAddress (addr bytes : Nat) (wdata : Option Word) : Option Access :=
  if Config.base ≤ addr then some ⟨addr - Config.base, bytes, wdata⟩ else none

end Sys2Proof.Machine
end

