-- ==== Sys2Proof/Machine/Ops.lean ====
section
/-! DEFINITION. The named operations every command is made of: the line (00_scope.md R12, R13), acceptance and the two
ways of completing (40_timing.md R102, R103, 60_exceptions.md R231, R233). An error is taken by `finish` or `complete`
with its code; the return from one is the next accepted command (60_exceptions.md R241). -/
namespace Sys2Proof.Machine

/-- The outcome of a meaning or a step. -/
abbrev Result := Host.Outcome State Fault Refusal

/-! ### The line -/

/-- OUT <- o, recorded in the history when OUT changes (40_timing.md R110). -/
def State.setOut (o : LineOut) (s : State) : State :=
  if s.out = o then s else { s with out := o, history := .out s.time o :: s.history }

/-- `Drive(Low)` (00_scope.md R12). -/
def State.driveLow (s : State) : State := s.setOut .low

/-- `Release()` (00_scope.md R12). -/
def State.release (s : State) : State := s.setOut .released

/-- `Level(t)`: 0 where OUT is Low, else the level of the released line (00_scope.md R13). -/
def State.level (s : State) (env : Bool) : Bool :=
  match s.out with
  | .low => false
  | .released => env

/-- A sample taken at this tick, recorded in the history (40_timing.md R110). -/
def State.noteSample (env : Bool) (s : State) : State :=
  { s with history := .sample s.time (s.level env) :: s.history }

/-- `bit <- Sample()` (41_bit_slots.md R122). -/
def State.sampleBit (env : Bool) (s : State) : State :=
  { s.noteSample env with bit := s.level env }

/-- `Wait(n)` with n ≥ 1: C <- C + n, and the operation is suspended (40_timing.md R103). -/
def State.suspend (n : Nat) (s : State) : State := { s with c := s.c + .ofNat 16 n }

/-! ### The framer's registers -/

/-- `SH <- SH | (zext_8(bit) << i)` (42_byte_framer.md R142). -/
def State.accumulate (i : Nat) (s : State) : State := { s with sh := s.sh ||| bitByte s.bit <<< i }

/-- `RXDATA <- zext_32(bit)` (41_bit_slots.md R122). -/
def State.latchBit (s : State) : State := { s with rxdata := bitByte s.bit }

/-- `RXDATA <- zext_32(SH)` (42_byte_framer.md R142). -/
def State.latchByte (s : State) : State := { s with rxdata := s.sh }

/-! ### Completion -/

/-- `complete(e)` at a tick, and `raise Error(e)` (40_timing.md R103, 60_exceptions.md R231, R233). -/
def State.complete (e : ErrCode) (s : State) : State :=
  { s.release with fsm := .idle, done := true, err := e }

/-- `finish(e)`: completion at acceptance (40_timing.md R102). -/
def State.finish (e : ErrCode) (s : State) : State := { s with err := e, done := true }

/-! ### Acceptance -/

/-- The first check of acceptance: dropped while busy, else accepted, its flags cleared, and `body` goes on
(40_timing.md R102, 60_exceptions.md R236, R239). -/
def State.issue (body : State → State) (s : State) : State :=
  if s.busy then s.drop else body s.clearFlags

/-- The gate of the bus data commands: `finish(NOT_INIT)` where it is shut (60_exceptions.md R238). -/
def State.gated (body : State → State) (s : State) : State :=
  if s.gateOpen then body s else s.finish .notInit

/-- The operation starts: OPR, S = T + 1, C = 0, FSM = Run, BUSY = 1 (40_timing.md R102). -/
def State.begin (i : Instr) (s : State) : State :=
  { s with opr := some i, start := s.time + 1, c := 0, fsm := .run }

/-- An illegal word: accepted like any command, and `finish(ILLEGAL)` (60_exceptions.md R237). -/
def State.issueIllegal (s : State) : State := s.issue (·.finish .illegal)

end Sys2Proof.Machine
end

