-- ==== Sys2Proof/Machine/Decoder.lean ====
section
/-! DEFINITION. The temperature decoder, DECODE (45_decoder.md R210 to R214): from the raw word to IEEE 754 binary32. -/
namespace Sys2Proof.Machine

/-- The sign pattern: the top five bits all 1 (45_decoder.md R210). -/
def rawNegative (t : Raw) : Bool := t &&& 0xF800 == 0xF800

/-- `(~temp) + 1` modulo 2^16 (45_decoder.md R211). -/
def rawMagnitude (t : Raw) : Raw := ~~~t + 1

/-- The binary32 encoding of k / 16, or of -k / 16 where neg, for k < 2^16 (45_decoder.md R212). -/
def f32 (neg : Bool) (k : Nat) : Word :=
  if k = 0 then 0
  else
    let e := Nat.log2 k
    (BitVec.ofBool neg).setWidth 32 <<< 31
      ||| BitVec.ofNat 32 (e + 127 - 4) <<< 23
      ||| (BitVec.ofNat 32 k <<< (23 - e) &&& 0x7FFFFF)

/-- TEMP's value for the raw word of TH and TL (45_decoder.md R210). -/
def decodeTemp (th tl : Byte) : Word :=
  let t := rawTemp th tl
  if rawNegative t then f32 true (rawMagnitude t).toNat else f32 false t.toNat

/-- DECODE TH, TL: all of it at acceptance; never gated (40_timing.md R102, 45_decoder.md R210). -/
def execDecode (th tl : Byte) (s : State) : Result :=
  .next (s.issue fun a => { a with temp := decodeTemp th tl }.finish .none)

end Sys2Proof.Machine
end

