-- ==== Sys2Proof/Machine/Detector.lean ====
section
/-! DEFINITION. The presence detector (43_init.md R166): its body runs from PH and PK, one sample a tick. -/
namespace Sys2Proof.Machine

/-- Phase A's turn: a 0 is the first low sample and goes to phase B with PK = 1; after a 1, PK counts it. Either way
the detector waits a tick. -/
def State.detectHigh (env : Bool) (s : State) : State :=
  let t := s.noteSample env
  if s.level env then { t with pk := s.pk + 1 }.suspend 1
  else { t with ph := .b, pk := 1 }.suspend 1

/-- Phase B's turn: a 1 is the release, and the detector succeeds with PRESENT = 1; after a 0, PK counts it. -/
def State.detectLow (env : Bool) (s : State) : State :=
  let t := s.noteSample env
  if s.level env then { t with present := true }.complete .none
  else { t with pk := s.pk + 1 }.suspend 1

/-- The detector from its start: `PH <- A; PK <- 0`, and phase A's first sample. -/
def State.detectFirst (env : Bool) (s : State) : State := { s with ph := .a, pk := 0 }.detectHigh env

/-- The detector after a `Wait(1)`: the bound of its phase, else the phase's next sample. -/
def State.detectNext (env : Bool) (s : State) : State :=
  match s.ph with
  | .a => if s.pk = s.params.nPresHigh then s.complete .nopresHigh else s.detectHigh env
  | .b => if s.pk = s.params.nPresLow then s.complete .nopresLow else s.detectLow env

end Sys2Proof.Machine
end

