-- ==== Sys2Proof/Machine/Script.lean ====
section
/-! DEFINITION. An operation's pseudocode as data, and how a tick step runs it (00_scope.md R12, 40_timing.md R103). The
position in it is the offset C alone (10_state.md R47). -/
namespace Sys2Proof.Machine

/-- A line of an operation's pseudocode. -/
inductive Action where
  /-- `Drive(Low)` -/
  | driveLow
  /-- `Release()` -/
  | release
  /-- `Wait(n)` -/
  | wait (n : Nat)
  /-- `bit <- Sample()` -/
  | sample
  /-- `BI <- i` -/
  | setBi (i : Nat)
  /-- `SH <- 0x00` -/
  | clearSh
  /-- `SH <- SH | (zext_8(bit) << i)` -/
  | accumulate (i : Nat)
  /-- `RXDATA <- zext_32(bit)` -/
  | latchBit
  /-- `RXDATA <- zext_32(SH)` -/
  | latchByte
  /-- The body of PRESENCE from its start (43_init.md R166). -/
  | detect
  /-- The body of PRESENCE after one of its waits. -/
  | detectNext
  deriving DecidableEq, Repr

/-- The actions of one tick, in order, until a `Wait(n)` with n ≥ 1, the end, or the detector, which suspends or
completes by itself. `Wait(0)` has no effect; the end is `Complete()` (40_timing.md R103). -/
def runActions (env : Bool) : List Action → State → State
  | [], s => s.complete .none
  | .driveLow :: l, s => runActions env l s.driveLow
  | .release :: l, s => runActions env l s.release
  | .wait n :: l, s => if n = 0 then runActions env l s else s.suspend n
  | .sample :: l, s => runActions env l (s.sampleBit env)
  | .setBi i :: l, s => runActions env l { s with bi := .ofNat 3 i }
  | .clearSh :: l, s => runActions env l { s with sh := 0 }
  | .accumulate i :: l, s => runActions env l (s.accumulate i)
  | .latchBit :: l, s => runActions env l s.latchBit
  | .latchByte :: l, s => runActions env l s.latchByte
  | .detect :: _, s => s.detectFirst env
  | .detectNext :: _, s => s.detectNext env

/-- The actions still to come at offset c: those after the waits that add up to c. At an offset where no wait ends
(which no run reaches, Safety.lean) there are none (DESIGN CHOICE, log 12). -/
def fromOffset : List Action → Nat → List Action
  | [], _ => []
  | a :: l, c =>
    if c = 0 then a :: l
    else
      match a with
      | .wait n => if n ≤ c then fromOffset l (c - n) else []
      | .detect => [.detectNext]
      | .driveLow => fromOffset l c
      | .release => fromOffset l c
      | .sample => fromOffset l c
      | .setBi _ => fromOffset l c
      | .clearSh => fromOffset l c
      | .accumulate _ => fromOffset l c
      | .latchBit => fromOffset l c
      | .latchByte => fromOffset l c
      | .detectNext => fromOffset l c

/-- The sum of the waits of a pseudocode without the detector: its completion offset D (40_timing.md R105). -/
def duration : List Action → Nat
  | [] => 0
  | .wait n :: l => n + duration l
  | .driveLow :: l => duration l
  | .release :: l => duration l
  | .sample :: l => duration l
  | .setBi _ :: l => duration l
  | .clearSh :: l => duration l
  | .accumulate _ :: l => duration l
  | .latchBit :: l => duration l
  | .latchByte :: l => duration l
  | .detect :: l => duration l
  | .detectNext :: l => duration l

end Sys2Proof.Machine
end

