-- ==== Sys2Proof/Machine/Delay.lean ====
section
/-! DEFINITION. DELAY (40_timing.md R106). -/
namespace Sys2Proof.Machine

/-- The pseudocode of 40_timing.md R106. -/
def delayScript (n : BitVec 16) : List Action := [.release, .wait n.toNat]

/-- DELAY N at acceptance: N = 0 completes at once, else it runs; it is never gated (40_timing.md R102, R106). -/
def execDelay (n : BitVec 16) (s : State) : Result :=
  .next (s.issue fun a => if n = 0 then a.finish .none else a.begin (.delay n))

end Sys2Proof.Machine
end

