-- ==== Sys2Proof/Machine/Slots.lean ====
section
/-! DEFINITION. The write-slot generator and the read-slot sampler: WRITE_BIT and READ_BIT (41_bit_slots.md R120, R122), and
the slot bodies that the framer repeats. -/
namespace Sys2Proof.Machine

/-- A write slot of bit b (41_bit_slots.md R120). -/
def writeSlot (p : Config.Params) (b : Bool) : List Action :=
  [.driveLow, .wait (p.writeShape b).1, .release, .wait (p.writeShape b).2]

/-- A read slot up to its sample (41_bit_slots.md R122). -/
def readSlotToSample (p : Config.Params) : List Action :=
  [.driveLow, .wait p.tRLow, .release, .wait p.tRSample, .sample]

/-- The pseudocode of WRITE_BIT (41_bit_slots.md R120). -/
def writeBitScript (p : Config.Params) (b : Bool) : List Action := writeSlot p b

/-- The pseudocode of READ_BIT (41_bit_slots.md R122). -/
def readBitScript (p : Config.Params) : List Action := readSlotToSample p ++ [.wait p.tRPad, .latchBit]

/-- WRITE_BIT b at acceptance: gated, else it runs (40_timing.md R102). -/
def execWriteBit (b : Bool) (s : State) : Result :=
  .next (s.issue fun a => a.gated (·.begin (.writeBit b)))

/-- READ_BIT at acceptance: gated, else it runs (40_timing.md R102). -/
def execReadBit (s : State) : Result :=
  .next (s.issue fun a => a.gated (·.begin .readBit))

end Sys2Proof.Machine
end

