-- ==== Sys2Proof/Machine/Framer.lean ====
section
/-! DEFINITION. The byte framer: WRITE_BYTE and READ_BYTE, least significant bit first (42_byte_framer.md R140, R142). -/
namespace Sys2Proof.Machine

/-- The turn of index i in WRITE_BYTE D (42_byte_framer.md R140). -/
def writeTurn (p : Config.Params) (d : Byte) (i : Nat) : List Action :=
  .setBi i :: writeSlot p (dataBit d i) ++ [.wait p.tWbGap]

/-- The turn of index i in READ_BYTE (42_byte_framer.md R142). -/
def readTurn (p : Config.Params) (i : Nat) : List Action :=
  .setBi i :: readSlotToSample p ++ [.accumulate i, .wait p.tRPad, .wait p.tRbRec]

/-- The pseudocode of WRITE_BYTE (42_byte_framer.md R140). -/
def writeByteScript (p : Config.Params) (d : Byte) : List Action :=
  (List.range 8).flatMap (writeTurn p d)

/-- The pseudocode of READ_BYTE (42_byte_framer.md R142). -/
def readByteScript (p : Config.Params) : List Action :=
  .clearSh :: (List.range 8).flatMap (readTurn p) ++ [.latchByte]

/-- WRITE_BYTE D at acceptance: gated, else it runs (40_timing.md R102). -/
def execWriteByte (d : Byte) (s : State) : Result :=
  .next (s.issue fun a => a.gated (·.begin (.writeByte d)))

/-- READ_BYTE at acceptance: gated, else it runs (40_timing.md R102). -/
def execReadByte (s : State) : Result :=
  .next (s.issue fun a => a.gated (·.begin .readByte))

end Sys2Proof.Machine
end

