-- ==== Sys2Proof/Machine/Init.lean ====
section
/-! DEFINITION. The reset pulse generator and the presence detector's commands: RESET, PRESENCE and INIT (43_init.md R160,
R166, R170). -/
namespace Sys2Proof.Machine

/-- The pseudocode of RESET (43_init.md R160). -/
def resetScript (p : Config.Params) : List Action :=
  [.driveLow, .wait p.tRstLow, .release, .wait p.tRstWait]

/-- The pseudocode of PRESENCE (43_init.md R166). -/
def presenceScript : List Action := [.detect]

/-- The pseudocode of INIT (43_init.md R170). -/
def initScript (p : Config.Params) : List Action := resetScript p ++ presenceScript

/-- RESET at acceptance: PRESENT <- 0, and it runs; never gated (40_timing.md R102). -/
def execReset (s : State) : Result :=
  .next (s.issue fun a => a.clearPresent.begin .reset)

/-- PRESENCE at acceptance: PRESENT <- 0, and it runs; never gated (40_timing.md R102). -/
def execPresence (s : State) : Result :=
  .next (s.issue fun a => a.clearPresent.begin .presence)

/-- INIT at acceptance: PRESENT <- 0, and it runs; never gated (40_timing.md R102). -/
def execInit (s : State) : Result :=
  .next (s.issue fun a => a.clearPresent.begin .init)

end Sys2Proof.Machine
end

