-- ==== Sys2Proof/Machine/Tick.lean ====
section
/-! DEFINITION. The controller's step: one tick (40_timing.md R101, R103), and one `clk` cycle of the divider (R100). -/
namespace Sys2Proof.Machine

/-- The pseudocode of an operation under parameters p. DECODE runs whole at acceptance and has none
(45_decoder.md R210). -/
def script (p : Config.Params) : Instr → List Action
  | .delay n => delayScript n
  | .writeBit b => writeBitScript p b
  | .readBit => readBitScript p
  | .writeByte d => writeByteScript p d
  | .readByte => readByteScript p
  | .reset => resetScript p
  | .presence => presenceScript
  | .init => initScript p
  | .decode _ _ => []

/-- The pseudocode of OPR; opcode 0 has none. -/
def State.oprScript (s : State) : List Action :=
  match s.opr with
  | some i => script s.params i
  | none => []

/-- OPR's pseudocode resumed at offset C (40_timing.md R103). -/
def State.resume (env : Bool) (s : State) : State := runActions env (fromOffset s.oprScript s.c.toNat) s

/-- S + C modulo 2^32, the tick at which the operation resumes (10_state.md R43). -/
def State.resumeAt (s : State) : Word := s.start + s.c.setWidth 32

/-- `TIME <- t`. -/
def State.setTime (t : Word) (s : State) : State := { s with time := t }

/-- `TIME <- TIME + 1` modulo 2^32 (40_timing.md R101). -/
def State.advanceTime (s : State) : State := s.setTime (s.time + 1)

/-- The tick step (40_timing.md R103), with the level of the released line at this tick. -/
def State.tickStep (env : Bool) (s : State) : State :=
  let t := s.advanceTime
  if t.fsm = .run ∧ t.time = t.resumeAt then t.resume env else t

/-- The rest of the `clk` cycles up to the next strobe, at which DIV is 0 again, and its tick step (40_timing.md R100, R101). -/
def State.tick (env : Bool) (s : State) : State := { s with div := 0 }.tickStep env

/-- One `clk` cycle: DIV counts to TICK_DIV - 1, and where it wraps to 0 the strobe's tick step is taken
(40_timing.md R100). -/
def State.clkCycle (env : Bool) (s : State) : State :=
  if s.div + 1 < s.params.tickDiv then { s with div := s.div + 1 } else s.tick env

/-- A run of tick steps, one for each level of the released line. -/
def State.ticks (levels : List Bool) (s : State) : State := levels.foldl (fun t env => t.tickStep env) s

end Sys2Proof.Machine
end

