-- ==== Sys2Proof/Machine/Dispatch.lean ====
section
/-! DEFINITION. One arm per command: what issuing it does (40_timing.md R102). -/
namespace Sys2Proof.Machine

/-- A decoded command written to CMD. What it then does at each tick is its pseudocode (Machine/Tick.lean). -/
def exec (i : Instr) (s : State) : Host.Outcome State Fault Refusal :=
  match i with
  | .delay n => Sys2Proof.Machine.execDelay n s
  | .writeBit b => Sys2Proof.Machine.execWriteBit b s
  | .readBit => Sys2Proof.Machine.execReadBit s
  | .writeByte d => Sys2Proof.Machine.execWriteByte d s
  | .readByte => Sys2Proof.Machine.execReadByte s
  | .reset => Sys2Proof.Machine.execReset s
  | .presence => Sys2Proof.Machine.execPresence s
  | .init => Sys2Proof.Machine.execInit s
  | .decode th tl => Sys2Proof.Machine.execDecode th tl s

end Sys2Proof.Machine
end

