-- ==== Sys2Proof/Machine/Bus.lean ====
section
/-! DEFINITION. The register window (20_memory.md R60 to R70), block reset (70_reset_and_hazards.md R260 to R262), and the
effect of every move of the surroundings. -/
namespace Sys2Proof.Machine

/-- `RegRead`: the 32-bit value of a register (20_memory.md R63, 10_state.md R21 to R34). -/
def State.regRead (s : State) : Reg → Word
  | .cmd => 0
  | .status => s.status
  | .ctrl => s.ctrl
  | .rxdata => s.rxdata.setWidth 32
  | .temp => s.temp
  | .time => s.time
  | .reserved18 => 0
  | .reserved1C => 0

/-- A command word written to CMD (10_state.md R22, 40_timing.md R102). -/
def command (w : Word) (s : State) : Result :=
  match decode w with
  | .ok i => exec i s
  | .error _ => .next s.issueIllegal

/-- `RegWrite`: CMD issues a command, CTRL sets GATE to bit 0, every other register ignores it (20_memory.md R63). -/
def regWrite (r : Reg) (v : Word) (s : State) : Result :=
  match r with
  | .cmd => command v s
  | .ctrl => .next { s with gate := v.getLsbD 0 }
  | .status => .next s
  | .rxdata => .next s
  | .temp => .next s
  | .time => .next s
  | .reserved18 => .next s
  | .reserved1C => .next s

/-- A host access: refused outside the interface (20_memory.md R62); a read puts the register's value on `bus_rdata`
and changes nothing else (R68). -/
def access (a : Access) (s : State) : Result :=
  if a.admissible then
    match a.wdata with
    | none => .next { s with rdata := s.regRead a.reg }
    | some v => regWrite a.reg v s
  else .refused .accessOutsideInterface

/-- Block reset: every piece of the OWC's state at the value of 10_state.md R50 (70_reset_and_hazards.md R260). The
parameters stay, and so do the moves still to come and the counter of drawn levels, which are no state of the OWC. -/
def State.blockReset (s : State) : State :=
  { State.reset with params := s.params, inputs := s.inputs, draws := s.draws }

/-- A `clk` cycle with `rst` = 1: block reset has priority, a write has no effect and a read returns 0
(70_reset_and_hazards.md R260, R262). -/
def rstCycle (a : Option Access) (s : State) : Result :=
  match a with
  | none => .next s.blockReset
  | some a => if a.admissible then .next s.blockReset else .refused .accessOutsideInterface

/-- One move of the surroundings. -/
def perform (m : Input) (s : State) : Result :=
  match m with
  | .tick level => .next (s.tick level)
  | .clk level => .next (s.clkCycle level)
  | .access a => access a s
  | .rst a => rstCycle a s

/-- A tick whose level no input names: the level is free (00_scope.md R9, R13). -/
def State.freeTick (s : State) : State :=
  { s with draws := s.draws + 1 }.tick (Config.freeLevel s.draws)

/-- The next move: the first of `inputs`, or a tick with a free level where there is none, since tick steps occur
without end (40_timing.md R108). -/
def advance (s : State) : Result :=
  match s.inputs with
  | [] => .next s.freeTick
  | m :: rest => perform m { s with inputs := rest }

end Sys2Proof.Machine
end

