-- ==== Sys2Proof/Machine/Step.lean ====
section
/-! DEFINITION. One step of the machine, and how an instruction is placed where the step takes it. -/
namespace Sys2Proof.Machine

/-- One step: refused under an illegal parameter set (00_scope.md R7), else the next move. -/
def step (s : State) : Host.Outcome State Fault Refusal :=
  if s.params.Legal then advance s else .refused .illegalParameters

/-- The command word whose bits are w, written to CMD as the next move: the OWC fetches nothing, its commands come
from the host (10_state.md R47). -/
def State.withFetchWord (s : State) (nbits w : Nat) : State :=
  { s with inputs := .access (.write .cmd (tableWord nbits w)) :: s.inputs }

end Sys2Proof.Machine
end

