-- ==== Sys2Proof/Machine/HostProgram.lean ====
section
/-! DEFINITION. The host beside the OWC (44_host_sequences.md, 30_encoding.md R88, R89): host programs, their
pseudo-instructions, the source's transactions, and a host that runs one with any timing (20_memory.md R71). It adds
nothing to the OWC's behaviour: every access it makes is a move of `step` (DESIGN CHOICE, log 20). -/
namespace Sys2Proof.Machine

/-- The names a host program gives to what it reads (30_encoding.md R89, 44_host_sequences.md R191 to R193). -/
inductive HostVar where
  | st
  | tl
  | th
  | result
  deriving DecidableEq, Repr

/-- The values of those names. -/
structure HostVars where
  st : Word
  tl : Word
  th : Word
  result : Word
  deriving DecidableEq, Repr

def HostVars.get (v : HostVars) : HostVar → Word
  | .st => v.st
  | .tl => v.tl
  | .th => v.th
  | .result => v.result

def HostVars.set (v : HostVars) (x : HostVar) (w : Word) : HostVars :=
  match x with
  | .st => { v with st := w }
  | .tl => { v with tl := w }
  | .th => { v with th := w }
  | .result => { v with result := w }

/-- A line of a host program (30_encoding.md R88, R89). -/
inductive HostOp where
  /-- `W <reg>, <value>` -/
  | write (r : Reg) (v : Word)
  /-- `W CMD, enc(DECODE TH[7:0], TL[7:0])` (44_host_sequences.md R193) -/
  | writeDecode (msb lsb : HostVar)
  /-- `R <reg> -> <name>` -/
  | read (r : Reg) (x : HostVar)
  /-- `POLL`: read STATUS until BUSY is 0 -/
  | poll
  /-- `if x[7:4] != 0 goto NO_DEVICE` (44_host_sequences.md R191) -/
  | stopIfError (x : HostVar)
  deriving DecidableEq, Repr

/-- `NOP`: the command DELAY 0 (30_encoding.md R88). -/
def hostNop : List HostOp := [.write .cmd (encode (.delay 0))]

/-- `DO c` (30_encoding.md R88). -/
def hostDo (i : Instr) : List HostOp := [.write .cmd (encode i), .poll]

/-- The counts of the DELAYs of `WAIT_US n` (30_encoding.md R88). -/
def waitCounts (n : Nat) : List (BitVec 16) :=
  List.replicate (n / 65535) 65535 ++ [.ofNat 16 (n % 65535)]

/-- `WAIT_US n` (30_encoding.md R88). -/
def hostWaitUs (n : Nat) : List HostOp := (waitCounts n).flatMap fun k => hostDo (.delay k)

/-- The ticks for which the DELAY that a line issues waits; 0 for any other line (40_timing.md R105). -/
def HostOp.delayTicks : HostOp → Nat
  | .write .cmd w =>
    match decode w with
    | .ok (.delay n) => n.toNat
    | _ => 0
  | _ => 0

/-- The OPEN delays of the host sequences, their parameters (44_host_sequences.md R197). -/
structure HostDelays where
  /-- T_SETTLE -/
  settle : Nat
  /-- T_CONV -/
  conv : Nat
  /-- T_RB_SETTLE -/
  rbSettle : Nat
  deriving DecidableEq, Repr

/-- "Skip ROM" (44_host_sequences.md R190). -/
def skipRom : Byte := 0xCC
/-- "Convert Temperature" (44_host_sequences.md R190). -/
def convertTemperature : Byte := 0x44
/-- "Read Scratchpad" (44_host_sequences.md R190). -/
def readScratchpad : Byte := 0xBE

/-- INIT and the presence check that ends the transaction on failure (44_host_sequences.md R194). -/
def hostInit : List HostOp := hostDo .init ++ [.read .status .st, .stopIfError .st]

/-- START_CONVERSION (44_host_sequences.md R191). -/
def startConversion (d : HostDelays) : List HostOp :=
  hostInit ++ hostWaitUs d.settle ++ hostDo (.writeByte skipRom) ++ hostDo (.writeByte convertTemperature)

/-- READ_TEMPERATURE_RAW (44_host_sequences.md R192). -/
def readTemperatureRaw (d : HostDelays) : List HostOp :=
  hostWaitUs d.conv ++ hostInit ++ hostDo (.writeByte skipRom) ++ hostDo (.writeByte readScratchpad)
    ++ hostDo .readByte ++ [.read .rxdata .tl] ++ hostWaitUs d.rbSettle ++ hostDo .readByte ++ [.read .rxdata .th]

/-- GET_TEMPERATURE (44_host_sequences.md R193). -/
def getTemperature (d : HostDelays) : List HostOp :=
  startConversion d ++ readTemperatureRaw d ++ [.writeDecode .th .tl, .read .temp .result]

/-- The OWC, and a host at the head of the rest of its program. -/
structure HostRun where
  owc : State
  prog : List HostOp
  vars : HostVars
  /-- The program went to NO_DEVICE (44_host_sequences.md R193). -/
  noDevice : Bool
  deriving DecidableEq, Repr

/-- Who moves: the controller, with the level of its tick, or the host (20_memory.md R71). -/
inductive HostMove where
  | tick (level : Bool)
  | host
  deriving DecidableEq, Repr

/-- The OWC makes one move. -/
def HostRun.play (m : Input) (h : HostRun) : Host.Outcome HostRun Fault Refusal :=
  match step { h.owc with inputs := [m] } with
  | .next s => .next { h with owc := s }
  | .fault f => .fault f
  | .refused r => .refused r

/-- One move of the host and the OWC together. The host's program has run out where it is empty. -/
def HostRun.move (m : HostMove) (h : HostRun) : Host.Outcome HostRun Fault Refusal :=
  match m with
  | .tick level => h.play (.tick level)
  | .host =>
    match h.prog with
    | [] => .next h
    | .write r v :: rest => { h with prog := rest }.play (.access (.write r v))
    | .writeDecode msb lsb :: rest =>
      { h with prog := rest }.play
        (.access (.write .cmd (encode (.decode (dropHigh (h.vars.get msb)) (dropHigh (h.vars.get lsb))))))
    | .read r x :: rest =>
      { h with prog := rest, vars := h.vars.set x (h.owc.regRead r) }.play (.access (.read r))
    | .poll :: rest =>
      { h with prog := if (h.owc.regRead .status).getLsbD 0 then .poll :: rest else rest }.play (.access (.read .status))
    | .stopIfError x :: rest =>
      if (h.vars.get x).extractLsb' 4 4 = 0 then .next { h with prog := rest }
      else .next { h with prog := [], noDevice := true }
where
  /-- `v[7:0]`. -/
  dropHigh (v : Word) : Byte := v.setWidth 8

/-- The move that the ideal host H0 leaves to the machine (95_test_vectors.md, section 0): its accesses take no time,
and its POLL reads STATUS after every tick. `env` gives the level at each tick. -/
def HostRun.idealMove (env : Nat → Bool) (h : HostRun) : HostMove :=
  match h.prog with
  | .poll :: _ => if h.owc.busy then .tick (env (h.owc.time + 1).toNat) else .host
  | _ => .host

/-- The run under the ideal host H0, at most `fuel` moves. -/
def HostRun.runIdeal (env : Nat → Bool) : Nat → HostRun → Host.Outcome HostRun Fault Refusal
  | 0, h => .next h
  | fuel + 1, h =>
    match h.prog with
    | [] => .next h
    | _ :: _ =>
      match h.move (h.idealMove env) with
      | .next h' => HostRun.runIdeal env fuel h'
      | .fault f => .fault f
      | .refused r => .refused r

end Sys2Proof.Machine
end

