-- ==== Sys2Proof/Safety.lean ====
section
/-! DEFINITION. What counts as a good state of the OWC, in the terms claims use: where an operation can stand, what the line
then is, and the invariant every step keeps. -/
namespace Sys2Proof.Machine

/-- The offsets at which a pseudocode that stands at offset `at` can be suspended (40_timing.md R103): the ends of its
waits of at least one tick, up to the detector. -/
def stops (here : Nat) : List Action → List Nat
  | [] => []
  | .wait n :: l => if n = 0 then stops here l else (here + n) :: stops (here + n) l
  | .detect :: _ => []
  | .detectNext :: _ => []
  | .driveLow :: l => stops here l
  | .release :: l => stops here l
  | .sample :: l => stops here l
  | .setBi _ :: l => stops here l
  | .clearSh :: l => stops here l
  | .accumulate _ :: l => stops here l
  | .latchBit :: l => stops here l
  | .latchByte :: l => stops here l

/-- The line output of a pseudocode suspended at offset c, where it was o at the start: what its actions before that
wait's end have made it. -/
def lineAt : List Action → Nat → LineOut → LineOut
  | [], _, o => o
  | a :: l, c, o =>
    if c = 0 then o
    else
      match a with
      | .wait n => if n ≤ c then lineAt l (c - n) o else o
      | .driveLow => lineAt l c .low
      | .release => lineAt l c .released
      | .detect => o
      | .detectNext => o
      | .sample => lineAt l c o
      | .setBi _ => lineAt l c o
      | .clearSh => lineAt l c o
      | .accumulate _ => lineAt l c o
      | .latchBit => lineAt l c o
      | .latchByte => lineAt l c o

/-- The presence detector, started at offset `here`, after one of its waits (43_init.md R166). In phase A, PK samples
were taken and all were 1; in phase B, PK samples in a row were 0, after fewer than N_PRES_HIGH ones. -/
def State.DetectorAt (s : State) (here : Nat) : Prop :=
  match s.ph with
  | .a => 1 ≤ s.pk ∧ s.pk ≤ s.params.nPresHigh ∧ s.c.toNat = here + s.pk
  | .b => 1 ≤ s.pk ∧ s.pk ≤ s.params.nPresLow ∧ here + s.pk ≤ s.c.toNat ∧
      s.c.toNat + 1 ≤ here + s.params.nPresHigh + s.pk

/-- The operation of OPR stands at offset C, where its pseudocode can be suspended (10_state.md R47). -/
def State.Positioned (s : State) : Prop :=
  match s.opr with
  | none => False
  | some (.decode _ _) => False
  | some .presence => s.c = 0 ∨ s.DetectorAt 0
  | some .init => s.c = 0 ∨ s.c.toNat ∈ stops 0 (initScript s.params) ∨ s.DetectorAt s.params.resetPart
  | some i => s.c = 0 ∨ s.c.toNat ∈ stops 0 (script s.params i)

/-- How many ticks are left before the running operation resumes, modulo 2^32 (10_state.md R43). -/
def State.untilResume (s : State) : Nat := (s.resumeAt - s.time).toNat

/-- The commands that look for presence anew, and so clear PRESENT (10_state.md R25). -/
def clearsPresent : Instr → Bool
  | .reset => true
  | .presence => true
  | .init => true
  | .delay _ => false
  | .writeBit _ => false
  | .readBit => false
  | .writeByte _ => false
  | .readByte => false
  | .decode _ _ => false

/-- The bus data commands, which the gate blocks (60_exceptions.md R238). -/
def isBusData : Instr → Bool
  | .writeBit _ => true
  | .readBit => true
  | .writeByte _ => true
  | .readByte => true
  | .delay _ => false
  | .reset => false
  | .presence => false
  | .init => false
  | .decode _ _ => false

/-- The invariant of the OWC. -/
structure State.Inv (s : State) : Prop where
  /-- 00_scope.md R7 -/
  legal : s.params.Legal
  /-- "OUT = `Released` whenever FSM = `Idle`" (10_state.md R41). -/
  idle_released : s.fsm = .idle → s.out = .released
  /-- DONE is 0 and ERR is none from acceptance to completion (10_state.md R24, R27). -/
  run_flags : s.fsm = .run → s.done = false ∧ s.err = .none
  /-- ERR is a completed command's (10_state.md R27). -/
  err_done : s.done = false → s.err = .none
  /-- The operation stands where its pseudocode can be suspended. -/
  positioned : s.fsm = .run → s.Positioned
  /-- OUT is what the pseudocode has made it. -/
  line : s.fsm = .run → s.out = lineAt s.oprScript s.c.toNat .released
  /-- The tick S + C lies ahead, and no further than S - 1 lies behind. -/
  ahead : s.fsm = .run → 0 < s.untilResume ∧ s.untilResume ≤ s.c.toNat + 1
  /-- PRESENT is 0 while RESET, PRESENCE or INIT runs (10_state.md R25). -/
  present_cleared : s.fsm = .run → ∀ i, s.opr = some i → clearsPresent i = true → s.present = false
  /-- "counts to at most max(N_PRES_HIGH, N_PRES_LOW)" (10_state.md R45). -/
  pk_bound : s.pk ≤ max s.params.nPresHigh s.params.nPresLow
  /-- "a counter of `clk` cycles from 0 to TICK_DIV - 1" (10_state.md R46). -/
  div_bound : s.div < s.params.tickDiv

/-- A command of nonzero duration completed with error e, n ticks after the state s in which it was accepted
(60_exceptions.md R233): idle, released, DONE, ERR = e, OVR cleared, TIME advanced; PRESENT, RXDATA and TEMP are said
beside it, and CTRL, the parameters and the divider are as they were. -/
structure CompletedFrom (s u : State) (e : ErrCode) (n : Nat) : Prop where
  fsm : u.fsm = .idle
  out : u.out = .released
  done : u.done = true
  err : u.err = e
  ovr : u.ovr = false
  time : u.time = s.time + .ofNat 32 n
  gate : u.gate = s.gate
  params : u.params = s.params
  div : u.div = s.div
  inputs : u.inputs = s.inputs

/-- slot(1) or slot(0) (40_timing.md R105), said of the parameters themselves. -/
def slotLength (p : Config.Params) (b : Bool) : Nat := if b then p.tW1Low + p.tW1High else p.tW0Low + p.tW0High

/-- The offset s_i at which slot i of WRITE_BYTE D starts (42_byte_framer.md R141). -/
def writeSlotStart (p : Config.Params) (d : Byte) (i : Nat) : Nat :=
  ((List.range i).map fun j => slotLength p (d.getLsbD j) + p.tWbGap).sum

/-- The length of one turn of READ_BYTE (42_byte_framer.md R143). -/
def readTurnLength (p : Config.Params) : Nat := p.tRLow + p.tRSample + p.tRPad + p.tRbRec

/-- The offset of the sample in slot i of READ_BYTE (42_byte_framer.md R143). -/
def readSampleOffset (p : Config.Params) (i : Nat) : Nat := i * readTurnLength p + p.tRLow + p.tRSample

/-! ### The event history, read -/

/-- The samples among events, each with its tick (40_timing.md R110). -/
def samplesOf (l : List Event) : List (Word × Bool) :=
  l.filterMap fun x =>
    match x with
    | .sample t b => some (t, b)
    | .out _ _ => none

/-- From the state s to the state u the samples taken are l, in time order: what the history gained (log 13). -/
def Sampled (s u : State) (l : List (Word × Bool)) : Prop :=
  ∃ new, u.history = new ++ s.history ∧ samplesOf new.reverse = l

/-- The changes of OUT among events, each with its tick. -/
def edgesOf (l : List Event) : List (Word × LineOut) :=
  l.filterMap fun x =>
    match x with
    | .out t o => some (t, o)
    | .sample _ _ => none

/-- The lengths of the Low runs between changes of OUT in time order: what a device on the line can tell a write slot's
bit from, since "On a write the bit is carried by the low duration alone" (41_bit_slots.md R124). -/
def lowRuns : List (Word × LineOut) → List Nat
  | [] => []
  | [_] => []
  | (t, o) :: (u, q) :: l =>
    match o with
    | .low => (u - t).toNat :: lowRuns ((u, q) :: l)
    | .released => lowRuns ((u, q) :: l)

/-- The answer of a loopback line to the k-th sample, after the events sent: the bit of the k-th slot, 1 where the slot's
Low run has the length of a write-1 slot's (42_byte_framer.md R146, 95_test_vectors.md P5). -/
def loopbackAnswer (p : Config.Params) (sent : List Event) (k : Nat) : Bool :=
  (lowRuns (edgesOf sent.reverse))[k]? == some p.tW1Low

end Sys2Proof.Machine
end

