-- ==== Sys2Proof/Certificates/Slice0/Obligations.lean ====
section
/-! DEFINITION. The statements for the provers. Each docstring names the rule of spec/ that it formalises. -/

open Sys2Proof Sys2Proof.Machine

/-! ### Encoding -/

/-- Decoding an encoded command gives it back, at every value of every operand (30_encoding.md R85, R87). -/
def Obligations.DecodeEncodeRoundTrip : Prop := ∀ i : Instr, decode (encode i) = .ok i

/-- A word that decodes to a command is the word that encodes it, so no two words spell one command. -/
def Obligations.EncodeDecodeRoundTrip : Prop := ∀ (w : Word) (i : Instr), decode w = .ok i → encode i = w

/-- 30_encoding.md R83: a word spells a command exactly when its masked bits are the row's, and the rows are disjoint. -/
def Obligations.WordsSpellTableRows : Prop :=
  (∀ w : Word,
    ((∃ n, decode w = .ok (.delay n)) ↔ w &&& 0xFF0000FF = 0x00000001) ∧
    ((∃ b, decode w = .ok (.writeBit b)) ↔ w &&& 0xFFFFFEFF = 0x00000002) ∧
    (decode w = .ok .readBit ↔ w &&& 0xFFFFFFFF = 0x00000003) ∧
    ((∃ d, decode w = .ok (.writeByte d)) ↔ w &&& 0xFFFF00FF = 0x00000004) ∧
    (decode w = .ok .readByte ↔ w &&& 0xFFFFFFFF = 0x00000005) ∧
    (decode w = .ok .reset ↔ w &&& 0xFFFFFFFF = 0x00000006) ∧
    (decode w = .ok .presence ↔ w &&& 0xFFFFFFFF = 0x00000007) ∧
    (decode w = .ok .init ↔ w &&& 0xFFFFFFFF = 0x00000008) ∧
    ((∃ th tl, decode w = .ok (.decode th tl)) ↔ w &&& 0xFF0000FF = 0x00000009)) ∧
  ∀ (w : Word) (r q : Row), r ∈ opcodeTable → q ∈ opcodeTable → w.spells r = true → w.spells q = true → r = q

/-- 30_encoding.md R84: every operand is an unsigned field copied from the word. -/
def Obligations.OperandsAreFieldsOfTheWord : Prop :=
  ∀ w : Word,
    (∀ n, decode w = .ok (.delay n) → n.toNat = w.toNat / 2 ^ 8 % 2 ^ 16) ∧
    (∀ b, decode w = .ok (.writeBit b) → b = w.toNat.testBit 8) ∧
    (∀ d, decode w = .ok (.writeByte d) → d.toNat = w.toNat / 2 ^ 8 % 2 ^ 8) ∧
    (∀ th tl, decode w = .ok (.decode th tl) →
      tl.toNat = w.toNat / 2 ^ 8 % 2 ^ 8 ∧ th.toNat = w.toNat / 2 ^ 16 % 2 ^ 8)

/-- 30_encoding.md R85: the illegal words are those whose OP is 0x0 or 0xA to 0xF, and those with a 1 in a reserved bit
or in a bit of ARG that their command does not use. -/
def Obligations.IllegalWordsAreThoseOfTheRule : Prop :=
  ∀ w : Word, (∃ e, decode w = .error e) ↔
    (w.extractLsb' 0 4).toNat = 0 ∨ 10 ≤ (w.extractLsb' 0 4).toNat ∨
    w.extractLsb' 4 4 ≠ 0 ∨ w.extractLsb' 24 8 ≠ 0 ∨
    ((w.extractLsb' 0 4).toNat = 2 ∧ w.extractLsb' 9 15 ≠ 0) ∨
    ((w.extractLsb' 0 4).toNat = 4 ∧ w.extractLsb' 16 8 ≠ 0) ∨
    ((w.extractLsb' 0 4).toNat ∈ [3, 5, 6, 7, 8] ∧ w.extractLsb' 8 16 ≠ 0)

/-- Words written out from the patterns of 30_encoding.md R83, one of every command. -/
def Obligations.SampleWordsDecode : Prop :=
  decode 0b00000000000000000110010000000001 = .ok (.delay 100) ∧
  decode 0b00000000000000000000000100000010 = .ok (.writeBit true) ∧
  decode 0b00000000000000000000000000000011 = .ok .readBit ∧
  decode 0b00000000000000001100110000000100 = .ok (.writeByte 0xCC) ∧
  decode 0b00000000000000000000000000000101 = .ok .readByte ∧
  decode 0b00000000000000000000000000000110 = .ok .reset ∧
  decode 0b00000000000000000000000000000111 = .ok .presence ∧
  decode 0b00000000000000000000000000001000 = .ok .init ∧
  decode 0b00000000111111111001110000001001 = .ok (.decode 0xFF 0x9C)

/-- 30_encoding.md R87: `enc` of every line of the assembler, and its inverse by the decoder; an operand out of range is an
assembly error, never a silent truncation. -/
def Obligations.AssemblerNeverTruncates : Prop :=
  (∀ n, n ≤ 65535 → (Asm.delay n).assemble = some (.ofNat 32 (n * 2 ^ 8 + 0x1))) ∧
  (∀ b, b ≤ 1 → (Asm.writeBit b).assemble = some (.ofNat 32 (b * 2 ^ 8 + 0x2))) ∧
  Asm.readBit.assemble = some 0x3 ∧
  (∀ d, d ≤ 0xFF → (Asm.writeByte d).assemble = some (.ofNat 32 (d * 2 ^ 8 + 0x4))) ∧
  Asm.readByte.assemble = some 0x5 ∧ Asm.reset.assemble = some 0x6 ∧ Asm.presence.assemble = some 0x7 ∧
  Asm.init.assemble = some 0x8 ∧
  (∀ th tl, th ≤ 0xFF → tl ≤ 0xFF →
    (Asm.decode th tl).assemble = some (.ofNat 32 (th * 2 ^ 16 + tl * 2 ^ 8 + 0x9))) ∧
  (∀ n, 65535 < n → (Asm.delay n).assemble = none) ∧
  (∀ b, 1 < b → (Asm.writeBit b).assemble = none) ∧
  (∀ d, 0xFF < d → (Asm.writeByte d).assemble = none) ∧
  (∀ th tl, 0xFF < th ∨ 0xFF < tl → (Asm.decode th tl).assemble = none) ∧
  ∀ (a : Asm) (w : Word), a.assemble = some w → ∃ i, decode w = .ok i ∧ i.toAsm = a

/-! ### The register window -/

/-- 20_memory.md R61: the register at byte offset off is at host address BASE + off, for the eight offsets of the
window and no other; BASE is a multiple of 32. -/
def Obligations.WindowHasEightRegisters : Prop :=
  Config.base % 32 = 0 ∧
  (∀ (r : Reg) (v : Option Word), ∃ a, Access.atAddress (Config.base + r.offset) 4 v = some a ∧
    a.admissible = true ∧ a.busAddr.toNat = r.offset / 4 ∧ a.reg = r ∧ a.wdata = v) ∧
  ∀ (addr bytes : Nat) (v : Option Word) (a : Access), Access.atAddress addr bytes v = some a → a.admissible = true →
    bytes = 4 ∧ addr = Config.base + a.reg.offset

/-- 20_memory.md R62: an access that is not 32 bits wide, or not at a multiple of 4, is refused, read or write. -/
def Obligations.AccessOutsideInterfaceIsRefused : Prop :=
  ∀ (s : State) (a : Access) (rest : List Input), s.params.Legal →
    a.bytes ≠ 4 ∨ a.off % 4 ≠ 0 → s.inputs = .access a :: rest →
    step s = .refused .accessOutsideInterface

/-- The window is 32 bytes long (20_memory.md R61); that an access beyond it is refused is the model's choice (log 21). -/
def Obligations.AccessBeyondTheWindowIsRefused : Prop :=
  ∀ (s : State) (a : Access) (rest : List Input), s.params.Legal → 32 ≤ a.off → s.inputs = .access a :: rest →
    step s = .refused .accessOutsideInterface

/-- 10_state.md R28, R30, R34: STATUS[31:8] and CTRL[31:1] read 0, writes to CTRL[31:1] are ignored, and offsets 0x18 and
0x1C read 0 and ignore writes. -/
def Obligations.ReservedBitsReadZero : Prop :=
  ∀ s : State,
    (∀ k, 8 ≤ k → (s.regRead .status).getLsbD k = false) ∧
    (∀ k, 1 ≤ k → (s.regRead .ctrl).getLsbD k = false) ∧
    s.regRead .reserved18 = 0 ∧ s.regRead .reserved1C = 0 ∧
    ∀ (v : Word) (rest : List Input), s.params.Legal →
      (s.inputs = .access (.write .reserved18 v) :: rest ∨ s.inputs = .access (.write .reserved1C v) :: rest →
        step s = .next { s with inputs := rest }) ∧
      (s.inputs = .access (.write .ctrl v) :: rest →
        step s = step { s with inputs := .access (.write .ctrl (v &&& 1)) :: rest })

/-- What a read of each register gives (10_state.md R21, R22, R30, R31, R34). -/
def Obligations.RegisterReads : Prop :=
  ∀ s : State,
    s.regRead .cmd = 0 ∧ s.regRead .reserved18 = 0 ∧ s.regRead .reserved1C = 0 ∧
    (∀ k, (s.regRead .ctrl).getLsbD k = (decide (k = 0) && s.gate)) ∧
    (∀ k, (s.regRead .rxdata).getLsbD k = (decide (k < 8) && s.rxdata.getLsbD k)) ∧
    s.regRead .temp = s.temp ∧ s.regRead .time = s.time

/-- The bits of STATUS (10_state.md R23 to R28, 60_exceptions.md R230): BUSY, DONE, PRESENT, OVR, a code of 0 to 4, and
zeros. -/
def Obligations.StatusBits : Prop :=
  ∀ s : State,
    ((s.regRead .status).getLsbD 0 = true ↔ s.fsm = .run) ∧
    (s.regRead .status).getLsbD 1 = s.done ∧
    (s.regRead .status).getLsbD 2 = s.present ∧
    (s.regRead .status).getLsbD 3 = s.ovr ∧
    (s.regRead .status).toNat / 16 =
      (match s.err with | .none => 0 | .nopresHigh => 1 | .nopresLow => 2 | .illegal => 3 | .notInit => 4)

/-- 20_memory.md R68, reads: no read has a side effect on the OWC. The only thing a read changes in the model is the
`bus_rdata` port, which shows the register (log 14). -/
def Obligations.ReadsChangeNothing : Prop :=
  ∀ (s : State) (r : Reg) (rest : List Input), s.params.Legal → s.inputs = .access (.read r) :: rest →
    step s = .next { s with inputs := rest, rdata := s.regRead r }

/-- 20_memory.md R63, writes: CTRL takes bit 0 into GATE and ignores the rest; every register but CMD and CTRL ignores
the write. -/
def Obligations.WritesOutsideCmd : Prop :=
  ∀ (s : State) (v : Word) (rest : List Input), s.params.Legal →
    (s.inputs = .access (.write .ctrl v) :: rest → step s = .next { s with inputs := rest, gate := v.getLsbD 0 }) ∧
    (∀ r : Reg, r ≠ .cmd → r ≠ .ctrl → s.inputs = .access (.write r v) :: rest → step s = .next { s with inputs := rest })

/-! ### Parameters and clock -/

/-- 00_scope.md R7: the defaults meet every constraint, and a set that breaks one is refused. The numbers are those of
R6, and the constraint on the clock holds of every TICK_DIV that can be written (log 6). -/
def Obligations.IllegalParametersAreRefused : Prop :=
  Config.Params.default =
    { tRstLow := 750, tRstWait := 15, nPresHigh := 200, nPresLow := 240, tW1Low := 2, tW1High := 60, tW0Low := 60,
      tW0High := 2, tRLow := 2, tRSample := 5, tRPad := 53, tRbRec := 2, tWbGap := 0,
      tickDivExtra := 0 } ∧
  Config.Params.default.Legal ∧
  (∀ s : State, ¬s.params.Legal → step s = .refused .illegalParameters) ∧
  ∀ (s : State), step s ≠ .refused .illegalParameters →
    480 ≤ s.params.tRstLow ∧
    60 ≤ s.params.tW1Low + s.params.tW1High ∧ 60 ≤ s.params.tW0Low + s.params.tW0High ∧
    1 ≤ s.params.tW0Low ∧ 1 ≤ s.params.tW1Low ∧ s.params.tW1Low < 15 ∧
    1 ≤ s.params.tW0High + s.params.tWbGap ∧ 1 ≤ s.params.tW1High + s.params.tWbGap ∧
    1 ≤ s.params.tRLow ∧ s.params.tRLow + s.params.tRSample < 15 ∧
    s.params.tRLow + s.params.tRSample + s.params.tRPad = 60 ∧ 1 ≤ s.params.tRbRec ∧
    1 ≤ s.params.nPresHigh ∧ 2 ≤ s.params.nPresLow ∧
    1 ≤ s.params.tickDiv ∧ Config.fClkHz ≤ 1000000 * s.params.tickDiv ∧
    8 * (s.params.tW0Low + s.params.tW0High) + 8 * s.params.tWbGap ≤ 65535 ∧
    8 * (s.params.tW1Low + s.params.tW1High) + 8 * s.params.tWbGap ≤ 65535 ∧
    8 * (s.params.tRLow + s.params.tRSample + s.params.tRPad + s.params.tRbRec) ≤ 65535 ∧
    s.params.tRstLow + s.params.tRstWait + s.params.nPresHigh + s.params.nPresLow ≤ 65536

/-- 40_timing.md R100: with TICK_DIV the ceiling, 1 µs ≤ P < 1 µs + 1 / F_CLK_HZ, both sides times 10^6 F_CLK_HZ; and
the strobe comes in the cycle in which DIV wraps from TICK_DIV - 1 to 0: the cycles before it only count. -/
def Obligations.TickEveryTickDivCycles : Prop :=
  (∀ p : Config.Params, Config.fClkHz ≤ 1000000 * p.tickDiv) ∧
  1000000 * Config.Params.default.tickDiv < Config.fClkHz + 1000000 ∧
  ∀ (s : State) (levels : List Bool) (e : Bool), s.div + levels.length + 1 = s.params.tickDiv →
    levels.foldl (fun t l => t.clkCycle l) s = { s with div := s.div + levels.length } ∧
    (levels.foldl (fun t l => t.clkCycle l) s).clkCycle e = { s with div := 0 }.tickStep e

/-- A step takes the next move (40_timing.md R101, R108, 20_memory.md R67): a tick move is a tick step, after which DIV is
0; a `clk` move is one cycle of the divider; with no move listed a tick with a free level is taken (log 1, 2, 7). So a
schedule of n ticks is run by n steps, and what is said of `ticks` is said of `step`. -/
def Obligations.StepTakesTheNextMove : Prop :=
  (∀ (s : State) (e : Bool) (rest : List Input), s.params.Legal →
    (s.inputs = .tick e :: rest → step s = .next (State.tickStep e { s with inputs := rest, div := 0 })) ∧
    (s.inputs = .clk e :: rest → step s = .next (State.clkCycle e { s with inputs := rest })) ∧
    (s.inputs = [] →
      step s = .next (State.tickStep (Config.freeLevel s.draws) { s with draws := s.draws + 1, div := 0 }))) ∧
  ∀ (s : State) (es : List Bool) (rest : List Input), s.params.Legal → s.div = 0 →
    s.inputs = es.map .tick ++ rest →
    Host.Core.run Sys2Proof.core es.length s = .next (State.ticks es { s with inputs := rest })

/-- 10_state.md R33, and what else a tick step leaves alone: TIME is incremented modulo 2^32, and CTRL, TEMP, OVR, OPR,
S, DIV and the parameters stay (20_memory.md R73: tick steps never write CTRL). That the `bus_rdata` port keeps its value
is the model's choice (log 14), and so is that OPR stays through a completion (log 11); `inputs` and `draws` are the
model's own fields (log 1, 2). -/
def Obligations.TickStepFrame : Prop :=
  ∀ (s : State) (e : Bool),
    (s.tickStep e).time.toNat = (s.time.toNat + 1) % 2 ^ 32 ∧
    (s.tickStep e).gate = s.gate ∧ (s.tickStep e).temp = s.temp ∧ (s.tickStep e).ovr = s.ovr ∧
    (s.tickStep e).opr = s.opr ∧ (s.tickStep e).start = s.start ∧ (s.tickStep e).div = s.div ∧
    (s.tickStep e).params = s.params ∧ (s.tickStep e).rdata = s.rdata ∧ (s.tickStep e).inputs = s.inputs ∧
    (s.tickStep e).draws = s.draws

/-- 60_exceptions.md R249: when FSM = Idle the line is released and only TIME and DIV change by themselves. That the
line is released is a fact of the invariant. -/
def Obligations.IdleChangesOnlyTimeAndDiv : Prop :=
  (∀ s : State, s.Inv → s.fsm = .idle → s.out = .released) ∧
  ∀ (s : State) (e : Bool), s.fsm = .idle →
    (∃ d, s.clkCycle e = { s with div := d } ∨ s.clkCycle e = { s with time := s.time + 1, div := d }) ∧
    s.tickStep e = { s with time := s.time + 1 }

/-- 10_state.md R33: TIME counts ticks since the last block reset: 0 after it, incremented modulo 2^32 by every tick that
the machine takes, read whole, and not written by the host or by a command. -/
def Obligations.TimeCountsTicks : Prop :=
  (∀ (s : State) (e : Bool), (s.tickStep e).time.toNat = (s.time.toNat + 1) % 2 ^ 32) ∧
  (∀ (s : State) (e : Bool) (rest : List Input), s.params.Legal → s.inputs = .tick e :: rest →
    ∃ t, step s = .next t ∧ t.time.toNat = (s.time.toNat + 1) % 2 ^ 32) ∧
  (∀ s : State, s.blockReset.time = 0 ∧ s.regRead .time = s.time) ∧
  (∀ (s t : State) (a : Access) (rest : List Input), s.inputs = .access a :: rest → step s = .next t →
    t.time = s.time)

/-! ### Block reset -/

/-- 10_state.md R50, 70_reset_and_hazards.md R260 and R262: in a cycle with `rst` = 1 every piece of state takes its value of
the table, whatever was under way; the cycle has priority over the tick and over the host access made in it: a write
changes nothing, and a read returns 0. -/
def Obligations.BlockResetValues : Prop :=
  ∀ (s : State) (oa : Option Access) (rest : List Input), s.params.Legal → s.inputs = .rst oa :: rest →
    (∀ a, oa = some a → a.admissible = true) →
    ∃ u, step s = .next u ∧
      (u.busy = false ∧ u.done = false ∧ u.present = false ∧ u.ovr = false ∧ u.err = .none ∧ u.regRead .status = 0) ∧
      (u.gate = true ∧ u.regRead .ctrl = 1) ∧
      u.regRead .rxdata = 0 ∧ u.temp = 0 ∧ u.time = 0 ∧
      u.fsm = .idle ∧ u.out = .released ∧ u.opr = none ∧ u.start = 0 ∧ u.c = 0 ∧ u.sh = 0 ∧ u.bi = 0 ∧
      u.ph = .a ∧ u.pk = 0 ∧ u.div = 0 ∧
      ∀ a, oa = some a → a.wdata = none → u.rdata = 0

/-- 70_reset_and_hazards.md R260 to R262: the state after a cycle with `rst` = 1 does not depend on the state before it, but
for the parameters and the model's own schedule of inputs and counter of levels (log 1, 2); an operation under way is
abandoned without a completion. The values of `bit`, of the `bus_rdata` port and of the history are the model's
(log 10, 13, 14). -/
def Obligations.ResetCycleHasPriority : Prop :=
  ∀ (s : State) (oa : Option Access) (rest : List Input), s.params.Legal → s.inputs = .rst oa :: rest →
    (∀ a, oa = some a → a.admissible = true) →
    step s = .next { State.reset with params := s.params, inputs := rest, draws := s.draws }

/-! ### Acceptance -/

/-- A step runs the decoded command: where the next move is a write of w to CMD and w decodes to i, the step is exec i,
the move taken from the list. `withFetchWord` places such a move. -/
def Obligations.StepRunsTheDecodedCommand : Prop :=
  (∀ (s : State) (w : Word) (i : Instr) (rest : List Input), s.params.Legal →
    s.inputs = .access (.write .cmd w) :: rest → decode w = .ok i → step s = exec i { s with inputs := rest }) ∧
  ∀ (s : State) (nbits w : Nat) (i : Instr), s.params.Legal → decodeTableWord nbits w = some i →
    step (s.withFetchWord nbits w) = exec i s

/-- 60_exceptions.md R237: an accepted illegal word completes at acceptance with ERR = ILLEGAL and DONE = 1, clears OVR,
and changes no other state. -/
def Obligations.IllegalWordCompletesAtOnce : Prop :=
  ∀ (s : State) (w : Word) (e : Illegal) (rest : List Input), s.params.Legal →
    s.inputs = .access (.write .cmd w) :: rest → decode w = .error e → s.fsm = .idle →
    step s = .next { s with inputs := rest, ovr := false, done := true, err := .illegal }

/-- 60_exceptions.md R236: a write to CMD while FSM = Run is dropped, whatever the word: OVR <- 1 and nothing else. The
running operation goes on as if the write had not happened, OVR stays 1 through its ticks and its completion, and is
cleared when the next command is accepted. -/
def Obligations.BusyDropsEveryCommand : Prop :=
  (∀ s : State, s.fsm = .run →
    (∀ i : Instr, exec i s = .next { s with ovr := true }) ∧
    (∀ (w : Word) (rest : List Input), s.params.Legal → s.inputs = .access (.write .cmd w) :: rest →
      step s = .next { s with inputs := rest, ovr := true }) ∧
    ∀ es : List Bool, State.ticks es { s with ovr := true } = { s.ticks es with ovr := true }) ∧
  ∀ (u : State) (w : Word) (rest : List Input), u.params.Legal → u.inputs = .access (.write .cmd w) :: rest →
    u.fsm = .idle → ∃ v, step u = .next v ∧ v.ovr = false

/-- 60_exceptions.md R238: a bus data command accepted while GATE = 1 and PRESENT = 0 completes with NOT_INIT, drives no
slot and writes no result register. No other command is gated, and with GATE = 0 none is. -/
def Obligations.ShutGateRefusesBusData : Prop :=
  (∀ (s : State) (i : Instr), isBusData i = true → s.fsm = .idle → s.gate = true → s.present = false →
    exec i s = .next { s with ovr := false, done := true, err := .notInit }) ∧
  ∀ (s : State) (i : Instr), s.fsm = .idle → isBusData i = false ∨ s.gate = false →
    ∃ t, exec i s = .next t ∧ t.err = .none

/-- 60_exceptions.md R239: the order of the checks at acceptance, the first that applies decides; and while running only
PRESENCE and INIT can fail. -/
def Obligations.PriorityOfTheChecks : Prop :=
  (∀ (s : State) (w : Word) (rest : List Input), s.params.Legal → s.inputs = .access (.write .cmd w) :: rest →
    (s.fsm = .run → step s = .next { s with inputs := rest, ovr := true }) ∧
    (s.fsm = .idle → (∀ i, decode w ≠ .ok i) → ∃ t, step s = .next t ∧ t.err = .illegal ∧ t.done = true) ∧
    (s.fsm = .idle → ∀ i, decode w = .ok i → isBusData i = true → s.gate = true → s.present = false →
      ∃ t, step s = .next t ∧ t.err = .notInit ∧ t.done = true) ∧
    (s.fsm = .idle → ∀ i, decode w = .ok i → isBusData i = false ∨ s.gate = false ∨ s.present = true →
      ∃ t, step s = .next t ∧ t.err = .none ∧ (t.fsm = .run ∧ t.opr = some i ∨ t.fsm = .idle ∧ t.done = true))) ∧
  ∀ (s : State) (e : Bool), s.fsm = .run → (s.tickStep e).fsm = .idle → s.opr ≠ some .presence → s.opr ≠ some .init →
    (s.tickStep e).err = .none

/-- 60_exceptions.md R235: no error is fatal. A step always has a next state, but for an access outside the interface, and an
idle OWC accepts any word whatever its error code and flags are: OVR is cleared, and it runs or has completed. -/
def Obligations.NoErrorIsFatal : Prop :=
  (∀ s : State, s.params.Legal →
    (∀ a rest, s.inputs = .access a :: rest ∨ s.inputs = .rst (some a) :: rest → a.admissible = true) →
    ∃ t, step s = .next t) ∧
  ∀ (s : State) (w : Word) (rest : List Input), s.params.Legal → s.inputs = .access (.write .cmd w) :: rest →
    s.fsm = .idle → ∃ t, step s = .next t ∧ t.ovr = false ∧ (t.fsm = .run ∨ t.done = true)

/-- WRITE_BIT, READ_BIT, WRITE_BYTE and READ_BYTE start when the OWC is idle and the gate is open (40_timing.md R102). -/
def Obligations.BusDataCommandsStart : Prop :=
  ∀ (s : State) (i : Instr), isBusData i = true → s.fsm = .idle → s.gate = false ∨ s.present = true →
    exec i s = .next { s with
      ovr := false, done := false, err := .none, opr := some i, start := s.time + 1, c := 0, fsm := .run }

/-- RESET, PRESENCE and INIT start whenever the OWC is idle, whatever the gate, and clear PRESENT (40_timing.md R102,
60_exceptions.md R238). -/
def Obligations.InitializationCommandsStart : Prop :=
  ∀ (s : State) (i : Instr), clearsPresent i = true → s.fsm = .idle →
    exec i s = .next { s with
      ovr := false, done := false, err := .none, present := false, opr := some i, start := s.time + 1, c := 0, fsm := .run }

/-- DELAY N with N ≥ 1 starts, and DELAY 0 completes at acceptance, whenever the OWC is idle, whatever the gate
(40_timing.md R102, R106). -/
def Obligations.DelayStartsOrCompletes : Prop :=
  ∀ (s : State) (n : BitVec 16), s.fsm = .idle →
    (n = 0 → exec (.delay n) s = .next { s with ovr := false, done := true, err := .none }) ∧
    (n ≠ 0 → exec (.delay n) s = .next { s with
      ovr := false, done := false, err := .none, opr := some (.delay n), start := s.time + 1, c := 0, fsm := .run })

/-- DECODE completes at acceptance whenever the OWC is idle, whatever the gate: TEMP, DONE = 1, ERR = 0, OVR = 0 and
nothing else (40_timing.md R102, 45_decoder.md R210). TEMP's value is `DecodedTemperatureIsExact`. -/
def Obligations.DecodeCompletesAtOnce : Prop :=
  ∀ (s : State) (th tl : Byte), s.fsm = .idle →
    exec (.decode th tl) s =
      .next { s with ovr := false, done := true, err := .none, temp := decodeTemp th tl }

/-- The frame of acceptance, for all nine commands: only the flags, OPR, S, C, FSM, and for DECODE TEMP, for RESET,
PRESENCE and INIT PRESENT, can change. The line is not touched (40_timing.md R102). That the `bus_rdata` port keeps its
value is the model's choice (log 14); `bit` and the history are the model's forms of state (log 10, 13), and `inputs` and
`draws` its own fields (log 1, 2). -/
def Obligations.AcceptanceFrame : Prop :=
  ∀ (i : Instr) (s t : State), exec i s = .next t →
    t.params = s.params ∧ t.gate = s.gate ∧ t.rxdata = s.rxdata ∧ t.time = s.time ∧ t.out = s.out ∧ t.sh = s.sh ∧
    t.bi = s.bi ∧ t.ph = s.ph ∧ t.pk = s.pk ∧ t.div = s.div ∧ t.bit = s.bit ∧ t.rdata = s.rdata ∧
    t.history = s.history ∧ t.inputs = s.inputs ∧ t.draws = s.draws ∧
    (clearsPresent i = false → t.present = s.present) ∧
    ((∀ th tl, i ≠ .decode th tl) → t.temp = s.temp)

/-! ### What runs in ticks -/

/-- DELAY N, N ≥ 1: busy with the line released for the whole wait, completed N ticks after S, nothing sampled
(40_timing.md R105, R106). -/
def Obligations.DelayRunsItsTicks : Prop :=
  ∀ (s : State) (n : BitVec 16), s.fsm = .idle → s.out = .released → n ≠ 0 →
    ∃ t, exec (.delay n) s = .next t ∧ ∀ es : List Bool,
      (es.length ≤ n.toNat → (t.ticks es).fsm = .run ∧ (t.ticks es).out = .released) ∧
      (es.length = n.toNat + 1 → CompletedFrom s (t.ticks es) .none (n.toNat + 1) ∧
        (t.ticks es).present = s.present ∧ (t.ticks es).rxdata = s.rxdata ∧ (t.ticks es).temp = s.temp ∧
        (t.ticks es).history = s.history)

/-- 41_bit_slots.md R121, over the parameters: Low for [0, low), Released for [low, low + high), completion at
low + high (40_timing.md R105), for the (low, high) of the bit; the defaults' pairs; a 1 is released before offset 15.
No sample is taken (41_bit_slots.md R120; the history is log 13). -/
def Obligations.WriteBitWaveform : Prop :=
  (Config.Params.default.writeShape true = (2, 60) ∧ Config.Params.default.writeShape false = (60, 2)) ∧
  ∀ (s : State) (b : Bool) (low high : Nat), s.params.Legal → s.fsm = .idle → s.out = .released →
    s.gate = false ∨ s.present = true →
    (low, high) = (if b then (s.params.tW1Low, s.params.tW1High) else (s.params.tW0Low, s.params.tW0High)) →
    (b = true → low < 15) ∧
    ∃ t, exec (.writeBit b) s = .next t ∧ ∀ es : List Bool,
      (∀ o, es.length = o + 1 → o < low → (t.ticks es).fsm = .run ∧ (t.ticks es).out = .low) ∧
      (∀ o, es.length = o + 1 → low ≤ o → o < low + high → (t.ticks es).fsm = .run ∧ (t.ticks es).out = .released) ∧
      (es.length = low + high + 1 → CompletedFrom s (t.ticks es) .none (low + high + 1) ∧
        (t.ticks es).present = s.present ∧ (t.ticks es).rxdata = s.rxdata ∧ (t.ticks es).temp = s.temp ∧
        Sampled s (t.ticks es) [])

/-- READ_BIT over the parameters (41_bit_slots.md R122, R123): the waveform, RXDATA unchanged until completion, and then the one
sample that the history records (log 13), taken at offset T_R_LOW + T_R_SAMPLE, which is below 15. -/
def Obligations.ReadBitSamplesOnce : Prop :=
  ∀ (s : State) (low d : Nat), s.params.Legal → s.fsm = .idle → s.out = .released → s.gate = false ∨ s.present = true →
    low = s.params.tRLow → d = s.params.tRLow + s.params.tRSample + s.params.tRPad →
    s.params.tRLow + s.params.tRSample < 15 ∧
    ∃ t, exec .readBit s = .next t ∧ ∀ es : List Bool,
      (∀ o, es.length = o + 1 → o < low → (t.ticks es).fsm = .run ∧ (t.ticks es).out = .low) ∧
      (∀ o, es.length = o + 1 → low ≤ o → o < d → (t.ticks es).fsm = .run ∧ (t.ticks es).out = .released) ∧
      (es.length ≤ d → (t.ticks es).rxdata = s.rxdata) ∧
      (∀ b, es.length = d + 1 → es[s.params.tRLow + s.params.tRSample]? = some b →
        CompletedFrom s (t.ticks es) .none (d + 1) ∧ (t.ticks es).regRead .rxdata = (if b then 1 else 0) ∧
        (t.ticks es).present = s.present ∧ (t.ticks es).temp = s.temp ∧
        Sampled s (t.ticks es) [(s.time + 1 + .ofNat 32 (s.params.tRLow + s.params.tRSample), b)])

/-- 42_byte_framer.md R141, over the parameters: slot i of WRITE_BYTE D starts at s_i and is Low, then Released, for the
times of the bit D[i]; the gap after it is released; completion at s_8 (40_timing.md R105). No sample is taken (R140; the
history is log 13). -/
def Obligations.WriteByteWaveform : Prop :=
  ∀ (s : State) (d : Byte), s.params.Legal → s.fsm = .idle → s.out = .released → s.gate = false ∨ s.present = true →
    ∃ t, exec (.writeByte d) s = .next t ∧ ∀ es : List Bool,
      (∀ i o low high, i < 8 →
        (low, high) =
          (if d.getLsbD i then (s.params.tW1Low, s.params.tW1High) else (s.params.tW0Low, s.params.tW0High)) →
        o < low + high + s.params.tWbGap → es.length = writeSlotStart s.params d i + o + 1 →
        (t.ticks es).fsm = .run ∧ (t.ticks es).out = if o < low then .low else .released) ∧
      (es.length = writeSlotStart s.params d 8 + 1 →
        CompletedFrom s (t.ticks es) .none (writeSlotStart s.params d 8 + 1) ∧
        (t.ticks es).present = s.present ∧ (t.ticks es).rxdata = s.rxdata ∧ (t.ticks es).temp = s.temp ∧
        Sampled s (t.ticks es) [])

/-- READ_BYTE over the parameters (42_byte_framer.md R142, R143): slot i starts at i × (T_R_LOW + T_R_SAMPLE + T_R_PAD +
T_RB_REC), Low for T_R_LOW ticks, then released; RXDATA unchanged until completion, and then bit i is the i-th of the
eight samples that the history records (log 13). -/
def Obligations.ReadByteAssemblesSamples : Prop :=
  ∀ (s : State), s.params.Legal → s.fsm = .idle → s.out = .released → s.gate = false ∨ s.present = true →
    ∃ t, exec .readByte s = .next t ∧ ∀ es : List Bool,
      (∀ i o, i < 8 → o < readTurnLength s.params → es.length = i * readTurnLength s.params + o + 1 →
        (t.ticks es).fsm = .run ∧ (t.ticks es).out = (if o < s.params.tRLow then .low else .released) ∧
        (t.ticks es).rxdata = s.rxdata) ∧
      (es.length = 8 * readTurnLength s.params + 1 →
        CompletedFrom s (t.ticks es) .none (8 * readTurnLength s.params + 1) ∧
        (∀ i b, i < 8 → es[readSampleOffset s.params i]? = some b → ((t.ticks es).regRead .rxdata).getLsbD i = b) ∧
        (∀ k, 8 ≤ k → ((t.ticks es).regRead .rxdata).getLsbD k = false) ∧
        (t.ticks es).present = s.present ∧ (t.ticks es).temp = s.temp ∧
        Sampled s (t.ticks es) ((List.range 8).map fun i =>
          (s.time + 1 + .ofNat 32 (readSampleOffset s.params i), es.getD (readSampleOffset s.params i) false)))

/-- RESET over the parameters (43_init.md R160, R161): Low for [0, T_RST_LOW), Released for T_RST_WAIT more, then complete with
PRESENT = 0. No sample is taken (the history is log 13). -/
def Obligations.ResetPulseWaveform : Prop :=
  ∀ (s : State), s.params.Legal → s.fsm = .idle → s.out = .released →
    ∃ t, exec .reset s = .next t ∧ ∀ es : List Bool,
      (∀ o, es.length = o + 1 → o < s.params.tRstLow → (t.ticks es).fsm = .run ∧ (t.ticks es).out = .low) ∧
      (∀ o, es.length = o + 1 → s.params.tRstLow ≤ o → o < s.params.tRstLow + s.params.tRstWait →
        (t.ticks es).fsm = .run ∧ (t.ticks es).out = .released) ∧
      (es.length = s.params.tRstLow + s.params.tRstWait + 1 →
        CompletedFrom s (t.ticks es) .none (s.params.tRstLow + s.params.tRstWait + 1) ∧
        (t.ticks es).present = false ∧ (t.ticks es).rxdata = s.rxdata ∧ (t.ticks es).temp = s.temp ∧
        Sampled s (t.ticks es) [])

/-- 43_init.md R167, the presence law, over the parameters. No 0 among the first N_PRES_HIGH samples: NOPRES_HIGH at offset
N_PRES_HIGH. A first 0 at offset i and then a run of L zeros, 1 ≤ L ≤ N_PRES_LOW - 1: success at offset i + L. A run of
N_PRES_LOW zeros: NOPRES_LOW at offset i + N_PRES_LOW. Until then it runs with the line released. A sample
is taken at every tick but the failing one's (the history is log 13). -/
def Obligations.PresenceLaw : Prop :=
  ∀ s : State, s.params.Legal → s.fsm = .idle → s.out = .released →
    ∃ t, exec .presence s = .next t ∧
      ∀ (es : List Bool) (e : ErrCode) (found : Bool),
        ((∃ x, es = List.replicate s.params.nPresHigh true ++ [x]) ∧ e = .nopresHigh ∧ found = false) ∨
        ((∃ i len, i < s.params.nPresHigh ∧ 1 ≤ len ∧ len + 1 ≤ s.params.nPresLow ∧
          es = List.replicate i true ++ List.replicate len false ++ [true]) ∧ e = .none ∧ found = true) ∨
        ((∃ i x, i < s.params.nPresHigh ∧
          es = List.replicate i true ++ List.replicate s.params.nPresLow false ++ [x]) ∧
          e = .nopresLow ∧ found = false) →
        (∀ k, k < es.length → (t.ticks (es.take k)).fsm = .run ∧ (t.ticks (es.take k)).out = .released) ∧
        CompletedFrom s (t.ticks es) e es.length ∧ (t.ticks es).present = found ∧
        (t.ticks es).rxdata = s.rxdata ∧ (t.ticks es).temp = s.temp ∧
        Sampled s (t.ticks es)
          ((if found then es else es.dropLast).zipIdx.map fun x => (s.time + 1 + .ofNat 32 x.2, x.1))

/-- 43_init.md R171: INIT drives the reset pulse, and the presence law holds from offset T_RST_LOW + T_RST_WAIT on, with no gap,
whatever the levels before it; no sample is taken before (the history is log 13). -/
def Obligations.InitLaw : Prop :=
  ∀ s : State, s.params.Legal → s.fsm = .idle → s.out = .released →
    ∃ t, exec .init s = .next t ∧
      (∀ (pre : List Bool) (o : Nat), pre.length = o + 1 → o < s.params.tRstLow + s.params.tRstWait →
        (t.ticks pre).fsm = .run ∧ (t.ticks pre).out = if o < s.params.tRstLow then .low else .released) ∧
      ∀ (pre es : List Bool) (e : ErrCode) (found : Bool), pre.length = s.params.tRstLow + s.params.tRstWait →
        ((∃ x, es = List.replicate s.params.nPresHigh true ++ [x]) ∧ e = .nopresHigh ∧ found = false) ∨
        ((∃ i len, i < s.params.nPresHigh ∧ 1 ≤ len ∧ len + 1 ≤ s.params.nPresLow ∧
          es = List.replicate i true ++ List.replicate len false ++ [true]) ∧ e = .none ∧ found = true) ∨
        ((∃ i x, i < s.params.nPresHigh ∧
          es = List.replicate i true ++ List.replicate s.params.nPresLow false ++ [x]) ∧
          e = .nopresLow ∧ found = false) →
        (∀ k, 0 < k → k < es.length →
          (t.ticks (pre ++ es.take k)).fsm = .run ∧ (t.ticks (pre ++ es.take k)).out = .released) ∧
        CompletedFrom s (t.ticks (pre ++ es)) e (pre.length + es.length) ∧ (t.ticks (pre ++ es)).present = found ∧
        (t.ticks (pre ++ es)).rxdata = s.rxdata ∧ (t.ticks (pre ++ es)).temp = s.temp ∧
        Sampled s (t.ticks (pre ++ es))
          ((if found then es else es.dropLast).zipIdx.map fun x => (s.time + 1 + .ofNat 32 (pre.length + x.2), x.1))

/-- 42_byte_framer.md R146: for every 8-bit D, WRITE_BYTE D followed by READ_BYTE on a loopback line leaves RXDATA = zext_32(D).
The line answers the k-th sample with the bit of the k-th slot that the WRITE_BYTE put on the wire, which it reads from
the changes of OUT in the history (log 13): a slot carries its bit by its Low time alone (41_bit_slots.md R124), so the
two Low times must differ, as the defaults' do. -/
def Obligations.LoopbackReproducesTheByte : Prop :=
  ∀ (s : State) (d : Byte), s.params.Legal → s.params.tW1Low ≠ s.params.tW0Low → s.fsm = .idle → s.out = .released →
    s.gate = false ∨ s.present = true →
    ∃ t, exec (.writeByte d) s = .next t ∧ ∀ ws : List Bool, ws.length = writeSlotStart s.params d 8 + 1 →
      ∃ sent, (t.ticks ws).history = sent ++ s.history ∧ (lowRuns (edgesOf sent.reverse)).length = 8 ∧
      ∃ v, exec .readByte (t.ticks ws) = .next v ∧ ∀ rs : List Bool, rs.length = 8 * readTurnLength s.params + 1 →
        (∀ k, k < 8 → rs[readSampleOffset s.params k]? = some (loopbackAnswer s.params sent k)) →
        (v.ticks rs).fsm = .idle ∧ (v.ticks rs).err = .none ∧ (v.ticks rs).regRead .rxdata = d.setWidth 32

/-! ### The whole machine -/

/-- Every step keeps the invariant. -/
def Obligations.StepKeepsInvariant : Prop := ∀ s t : State, s.Inv → step s = .next t → t.Inv

/-- The state after reset meets the invariant. -/
def Obligations.ResetMeetsInvariant : Prop := State.reset.Inv

/-- 40_timing.md R108: every running operation completes, whatever the levels, and within 65536 ticks (10_state.md R43:
C is at most 65535). The invariant rules out states that no run reaches. -/
def Obligations.EveryOperationCompletes : Prop :=
  ∀ (s : State) (es : List Bool), s.Inv → s.fsm = .run → es.length = 65536 →
    ∃ k, k ≤ es.length ∧ (s.ticks (es.take k)).fsm = .idle ∧ (s.ticks (es.take k)).done = true

/-- 10_state.md R32: TEMP is written only by a DECODE that is accepted and legal. (Block reset apart.) -/
def Obligations.TempWrittenOnlyByDecode : Prop :=
  ∀ s t : State, step s = .next t → t.temp ≠ s.temp →
    (∃ w th tl rest, s.inputs = .access (.write .cmd w) :: rest ∧ decode w = .ok (.decode th tl) ∧ s.fsm = .idle ∧
      t.temp = decodeTemp th tl) ∨
    ∃ a rest, s.inputs = .rst a :: rest

/-- 10_state.md R31: RXDATA is written at the completion of a READ_BIT or a READ_BYTE and at no other time. (Block reset
apart.) -/
def Obligations.RxdataWrittenOnlyByReads : Prop :=
  ∀ s t : State, step s = .next t → t.rxdata ≠ s.rxdata →
    (s.fsm = .run ∧ (s.opr = some .readBit ∨ s.opr = some .readByte) ∧ t.fsm = .idle ∧ t.done = true ∧ t.err = .none) ∨
    ∃ a rest, s.inputs = .rst a :: rest

/-- 10_state.md R25: PRESENT is set only when PRESENCE or INIT completes without an error, and cleared only where RESET,
PRESENCE or INIT is accepted. (Block reset apart.) -/
def Obligations.PresentLife : Prop :=
  ∀ s t : State, step s = .next t → t.present ≠ s.present →
    (t.present = true ∧ s.fsm = .run ∧ (s.opr = some .presence ∨ s.opr = some .init) ∧ t.fsm = .idle ∧ t.done = true ∧
      t.err = .none) ∨
    (t.present = false ∧ s.fsm = .idle ∧ t.fsm = .run ∧ ∃ w i rest, s.inputs = .access (.write .cmd w) :: rest ∧
      decode w = .ok i ∧ clearsPresent i = true) ∨
    ∃ a rest, s.inputs = .rst a :: rest

/-- 10_state.md R26: OVR, bit 3 of STATUS, is 0 after block reset, set when a write to CMD is dropped and cleared when a
command is accepted; nothing else changes it, block reset apart. -/
def Obligations.OverrunLife : Prop :=
  (∀ s : State, (s.regRead .status).getLsbD 3 = s.ovr ∧ s.blockReset.ovr = false) ∧
  ∀ s t : State, step s = .next t →
    (∀ w rest, s.inputs = .access (.write .cmd w) :: rest → t.ovr = decide (s.fsm = .run)) ∧
    (t.ovr ≠ s.ovr → (∃ w rest, s.inputs = .access (.write .cmd w) :: rest) ∨ ∃ a rest, s.inputs = .rst a :: rest)

/-- GATE changes only by a write to CTRL (10_state.md R29, 20_memory.md R73) or block reset, and the parameters never. -/
def Obligations.GateWrittenOnlyByCtrl : Prop :=
  ∀ s t : State, step s = .next t →
    t.params = s.params ∧
    (t.gate ≠ s.gate → (∃ v rest, s.inputs = .access (.write .ctrl v) :: rest ∧ t.gate = v.getLsbD 0) ∨
      ∃ a rest, s.inputs = .rst a :: rest)

/-- 60_exceptions.md R233, R239: the step in which a running operation ends, other than by block reset, leaves at once
DONE = 1, BUSY = 0, OUT released and a code, which is not 0 only for PRESENCE and INIT, with PRESENT as it was. -/
def Obligations.CompletionIsOneStep : Prop :=
  ∀ s t : State, step s = .next t → s.fsm = .run → t.fsm = .idle → (∀ a rest, s.inputs ≠ .rst a :: rest) →
    t.done = true ∧ t.busy = false ∧ t.out = .released ∧
    (t.err = .none ∨
      ((s.opr = some .presence ∨ s.opr = some .init) ∧ (t.err = .nopresHigh ∨ t.err = .nopresLow) ∧
        t.present = s.present))

/-- The source's invariant (44_host_sequences.md R194): a bus data command that starts to run found GATE = 0 or
PRESENT = 1. -/
def Obligations.NoBusDataWithoutPresence : Prop :=
  ∀ s t : State, step s = .next t → s.fsm = .idle → t.fsm = .run → ∀ i, t.opr = some i → isBusData i = true →
    s.gate = false ∨ s.present = true

/-- 70_reset_and_hazards.md R278, 60_exceptions.md R236: whatever host access is made while an operation runs, every
later tick does to the OWC what it would have done without it, but for OVR, GATE and the `bus_rdata` port. -/
def Obligations.HostCannotDisturbARunningOperation : Prop :=
  ∀ (s : State) (a : Access), s.fsm = .run → a.admissible = true →
    ∃ t, access a s = .next t ∧ ∀ es : List Bool,
      { t.ticks es with ovr := s.ovr, gate := s.gate, rdata := s.rdata } = s.ticks es

/-- 20_memory.md R77: a tick step takes at most one sample, at a tick at which OUT is Released, so that it reads Env. -/
def Obligations.OneSampleATick : Prop :=
  ∀ (s : State) (e : Bool), s.Inv →
    ∃ new : List Event, (s.tickStep e).history = new ++ s.history ∧
      (∀ x ∈ new, (∃ o, x = .out (s.time + 1) o) ∨ x = .sample (s.time + 1) e) ∧
      (new.filter fun x => x = .sample (s.time + 1) e).length ≤ 1 ∧
      ((∃ x ∈ new, x = .sample (s.time + 1) e) → (s.tickStep e).out = .released)

/-! ### The temperature decoder -/

/-- 45_decoder.md R212: the result is exact. Read as binary32, TEMP is s × k / 16 for the sign and the k of the raw
word: its fraction, exponent and sign fields satisfy (2^23 + fraction) 2^exponent × 16 = k 2^150, and it is +0.0 for 0. -/
def Obligations.DecodedTemperatureIsExact : Prop :=
  ∀ (th tl : Byte) (temp k : Nat) (neg : Bool), temp = th.toNat * 256 + tl.toNat →
    (if 0xF800 ≤ temp then neg = true ∧ k = 65536 - temp else neg = false ∧ k = temp) →
    (k = 0 → decodeTemp th tl = 0) ∧
    (0 < k →
      (decodeTemp th tl).getLsbD 31 = neg ∧
      1 ≤ ((decodeTemp th tl).extractLsb' 23 8).toNat ∧ ((decodeTemp th tl).extractLsb' 23 8).toNat ≤ 254 ∧
      (2 ^ 23 + ((decodeTemp th tl).extractLsb' 0 23).toNat) * 2 ^ ((decodeTemp th tl).extractLsb' 23 8).toNat * 16
        = k * 2 ^ 150)

/-- 45_decoder.md R213: the result is that of the raw word read as a signed 16-bit number, except for raw words 0x8000 to
0xF7FF, which are read as positive. -/
def Obligations.DecodeAgreesWithTwosComplement : Prop :=
  ∀ (th tl : Byte) (t : Raw), t = th ++ tl →
    (t.toNat < 0x8000 ∨ 0xF800 ≤ t.toNat → decodeTemp th tl = f32 (decide (t.toInt < 0)) t.toInt.natAbs) ∧
    (0x8000 ≤ t.toNat → t.toNat < 0xF800 → decodeTemp th tl = f32 false t.toNat)

/-- 45_decoder.md R211: for temp in [0xF800, 0xFFFF], magnitude = 0x10000 - temp, in [1, 0x0800]; 0xFF9C gives 0x0064. -/
def Obligations.MagnitudeIsSixteenBit : Prop :=
  (∀ t : Raw, 0xF800 ≤ t.toNat →
    (rawMagnitude t).toNat = 0x10000 - t.toNat ∧ 1 ≤ (rawMagnitude t).toNat ∧ (rawMagnitude t).toNat ≤ 0x0800) ∧
  (∀ t : Raw, (~~~t).toNat = 0xFFFF - t.toNat ∧ (rawMagnitude t).toNat = (0xFFFF - t.toNat + 1) % 2 ^ 16) ∧
  rawMagnitude 0xFF9C = 0x0064

/-! ### The host beside the OWC -/

/-- `WAIT_US n` (30_encoding.md R88): the lines it expands to, DELAY 65535 floor(n / 65535) times and then DELAY (n mod
65535), each followed by POLL; the ticks of its DELAYs are n in all. -/
def Obligations.WaitUsIssuesItsDelays : Prop :=
  ∀ n : Nat,
    hostWaitUs n =
      (List.replicate (n / 65535) [.write .cmd 0x00FFFF01, .poll]).flatten ++
        [.write .cmd (.ofNat 32 (n % 65535 * 2 ^ 8 + 0x1)), .poll] ∧
    ((hostWaitUs n).map HostOp.delayTicks).sum = n

/-- A host that finds an error after INIT goes to NO_DEVICE and makes no further access (44_host_sequences.md R194);
one that finds none goes on. -/
def Obligations.FailedPresenceEndsTheTransaction : Prop :=
  ∀ (h : HostRun) (x : HostVar) (rest : List HostOp), h.prog = .stopIfError x :: rest →
    ((h.vars.get x).toNat / 16 % 16 ≠ 0 →
      ∃ g, h.move .host = .next g ∧ g.noDevice = true ∧ g.owc = h.owc ∧ g.move .host = .next g) ∧
    ((h.vars.get x).toNat / 16 % 16 = 0 → h.move .host = .next { h with prog := rest })
end

