-- ==== Sys2Proof/Laws/State.lean ====
section
/-! SUPPORT. What each named update of the state leaves in each field, so that no proof unfolds a record update. -/
namespace Sys2Proof.Machine

section clearFlagsFields

variable (s : State)

@[simp] theorem State.clearFlags_params : (s.clearFlags).params = s.params := rfl
@[simp] theorem State.clearFlags_done : (s.clearFlags).done = false := rfl
@[simp] theorem State.clearFlags_present : (s.clearFlags).present = s.present := rfl
@[simp] theorem State.clearFlags_ovr : (s.clearFlags).ovr = false := rfl
@[simp] theorem State.clearFlags_err : (s.clearFlags).err = .none := rfl
@[simp] theorem State.clearFlags_gate : (s.clearFlags).gate = s.gate := rfl
@[simp] theorem State.clearFlags_rxdata : (s.clearFlags).rxdata = s.rxdata := rfl
@[simp] theorem State.clearFlags_temp : (s.clearFlags).temp = s.temp := rfl
@[simp] theorem State.clearFlags_time : (s.clearFlags).time = s.time := rfl
@[simp] theorem State.clearFlags_fsm : (s.clearFlags).fsm = s.fsm := rfl
@[simp] theorem State.clearFlags_out : (s.clearFlags).out = s.out := rfl
@[simp] theorem State.clearFlags_opr : (s.clearFlags).opr = s.opr := rfl
@[simp] theorem State.clearFlags_start : (s.clearFlags).start = s.start := rfl
@[simp] theorem State.clearFlags_c : (s.clearFlags).c = s.c := rfl
@[simp] theorem State.clearFlags_sh : (s.clearFlags).sh = s.sh := rfl
@[simp] theorem State.clearFlags_bi : (s.clearFlags).bi = s.bi := rfl
@[simp] theorem State.clearFlags_ph : (s.clearFlags).ph = s.ph := rfl
@[simp] theorem State.clearFlags_pk : (s.clearFlags).pk = s.pk := rfl
@[simp] theorem State.clearFlags_div : (s.clearFlags).div = s.div := rfl
@[simp] theorem State.clearFlags_bit : (s.clearFlags).bit = s.bit := rfl
@[simp] theorem State.clearFlags_rdata : (s.clearFlags).rdata = s.rdata := rfl
@[simp] theorem State.clearFlags_history : (s.clearFlags).history = s.history := rfl
@[simp] theorem State.clearFlags_inputs : (s.clearFlags).inputs = s.inputs := rfl
@[simp] theorem State.clearFlags_draws : (s.clearFlags).draws = s.draws := rfl

end clearFlagsFields

section dropFields

variable (s : State)

@[simp] theorem State.drop_params : (s.drop).params = s.params := rfl
@[simp] theorem State.drop_done : (s.drop).done = s.done := rfl
@[simp] theorem State.drop_present : (s.drop).present = s.present := rfl
@[simp] theorem State.drop_ovr : (s.drop).ovr = true := rfl
@[simp] theorem State.drop_err : (s.drop).err = s.err := rfl
@[simp] theorem State.drop_gate : (s.drop).gate = s.gate := rfl
@[simp] theorem State.drop_rxdata : (s.drop).rxdata = s.rxdata := rfl
@[simp] theorem State.drop_temp : (s.drop).temp = s.temp := rfl
@[simp] theorem State.drop_time : (s.drop).time = s.time := rfl
@[simp] theorem State.drop_fsm : (s.drop).fsm = s.fsm := rfl
@[simp] theorem State.drop_out : (s.drop).out = s.out := rfl
@[simp] theorem State.drop_opr : (s.drop).opr = s.opr := rfl
@[simp] theorem State.drop_start : (s.drop).start = s.start := rfl
@[simp] theorem State.drop_c : (s.drop).c = s.c := rfl
@[simp] theorem State.drop_sh : (s.drop).sh = s.sh := rfl
@[simp] theorem State.drop_bi : (s.drop).bi = s.bi := rfl
@[simp] theorem State.drop_ph : (s.drop).ph = s.ph := rfl
@[simp] theorem State.drop_pk : (s.drop).pk = s.pk := rfl
@[simp] theorem State.drop_div : (s.drop).div = s.div := rfl
@[simp] theorem State.drop_bit : (s.drop).bit = s.bit := rfl
@[simp] theorem State.drop_rdata : (s.drop).rdata = s.rdata := rfl
@[simp] theorem State.drop_history : (s.drop).history = s.history := rfl
@[simp] theorem State.drop_inputs : (s.drop).inputs = s.inputs := rfl
@[simp] theorem State.drop_draws : (s.drop).draws = s.draws := rfl

end dropFields

section clearPresentFields

variable (s : State)

@[simp] theorem State.clearPresent_params : (s.clearPresent).params = s.params := rfl
@[simp] theorem State.clearPresent_done : (s.clearPresent).done = s.done := rfl
@[simp] theorem State.clearPresent_present : (s.clearPresent).present = false := rfl
@[simp] theorem State.clearPresent_ovr : (s.clearPresent).ovr = s.ovr := rfl
@[simp] theorem State.clearPresent_err : (s.clearPresent).err = s.err := rfl
@[simp] theorem State.clearPresent_gate : (s.clearPresent).gate = s.gate := rfl
@[simp] theorem State.clearPresent_rxdata : (s.clearPresent).rxdata = s.rxdata := rfl
@[simp] theorem State.clearPresent_temp : (s.clearPresent).temp = s.temp := rfl
@[simp] theorem State.clearPresent_time : (s.clearPresent).time = s.time := rfl
@[simp] theorem State.clearPresent_fsm : (s.clearPresent).fsm = s.fsm := rfl
@[simp] theorem State.clearPresent_out : (s.clearPresent).out = s.out := rfl
@[simp] theorem State.clearPresent_opr : (s.clearPresent).opr = s.opr := rfl
@[simp] theorem State.clearPresent_start : (s.clearPresent).start = s.start := rfl
@[simp] theorem State.clearPresent_c : (s.clearPresent).c = s.c := rfl
@[simp] theorem State.clearPresent_sh : (s.clearPresent).sh = s.sh := rfl
@[simp] theorem State.clearPresent_bi : (s.clearPresent).bi = s.bi := rfl
@[simp] theorem State.clearPresent_ph : (s.clearPresent).ph = s.ph := rfl
@[simp] theorem State.clearPresent_pk : (s.clearPresent).pk = s.pk := rfl
@[simp] theorem State.clearPresent_div : (s.clearPresent).div = s.div := rfl
@[simp] theorem State.clearPresent_bit : (s.clearPresent).bit = s.bit := rfl
@[simp] theorem State.clearPresent_rdata : (s.clearPresent).rdata = s.rdata := rfl
@[simp] theorem State.clearPresent_history : (s.clearPresent).history = s.history := rfl
@[simp] theorem State.clearPresent_inputs : (s.clearPresent).inputs = s.inputs := rfl
@[simp] theorem State.clearPresent_draws : (s.clearPresent).draws = s.draws := rfl

end clearPresentFields

section finishFields

variable (s : State) (e : ErrCode)

@[simp] theorem State.finish_params : (s.finish e).params = s.params := rfl
@[simp] theorem State.finish_done : (s.finish e).done = true := rfl
@[simp] theorem State.finish_present : (s.finish e).present = s.present := rfl
@[simp] theorem State.finish_ovr : (s.finish e).ovr = s.ovr := rfl
@[simp] theorem State.finish_err : (s.finish e).err = e := rfl
@[simp] theorem State.finish_gate : (s.finish e).gate = s.gate := rfl
@[simp] theorem State.finish_rxdata : (s.finish e).rxdata = s.rxdata := rfl
@[simp] theorem State.finish_temp : (s.finish e).temp = s.temp := rfl
@[simp] theorem State.finish_time : (s.finish e).time = s.time := rfl
@[simp] theorem State.finish_fsm : (s.finish e).fsm = s.fsm := rfl
@[simp] theorem State.finish_out : (s.finish e).out = s.out := rfl
@[simp] theorem State.finish_opr : (s.finish e).opr = s.opr := rfl
@[simp] theorem State.finish_start : (s.finish e).start = s.start := rfl
@[simp] theorem State.finish_c : (s.finish e).c = s.c := rfl
@[simp] theorem State.finish_sh : (s.finish e).sh = s.sh := rfl
@[simp] theorem State.finish_bi : (s.finish e).bi = s.bi := rfl
@[simp] theorem State.finish_ph : (s.finish e).ph = s.ph := rfl
@[simp] theorem State.finish_pk : (s.finish e).pk = s.pk := rfl
@[simp] theorem State.finish_div : (s.finish e).div = s.div := rfl
@[simp] theorem State.finish_bit : (s.finish e).bit = s.bit := rfl
@[simp] theorem State.finish_rdata : (s.finish e).rdata = s.rdata := rfl
@[simp] theorem State.finish_history : (s.finish e).history = s.history := rfl
@[simp] theorem State.finish_inputs : (s.finish e).inputs = s.inputs := rfl
@[simp] theorem State.finish_draws : (s.finish e).draws = s.draws := rfl

end finishFields

section beginFields

variable (s : State) (i : Instr)

@[simp] theorem State.begin_params : (s.begin i).params = s.params := rfl
@[simp] theorem State.begin_done : (s.begin i).done = s.done := rfl
@[simp] theorem State.begin_present : (s.begin i).present = s.present := rfl
@[simp] theorem State.begin_ovr : (s.begin i).ovr = s.ovr := rfl
@[simp] theorem State.begin_err : (s.begin i).err = s.err := rfl
@[simp] theorem State.begin_gate : (s.begin i).gate = s.gate := rfl
@[simp] theorem State.begin_rxdata : (s.begin i).rxdata = s.rxdata := rfl
@[simp] theorem State.begin_temp : (s.begin i).temp = s.temp := rfl
@[simp] theorem State.begin_time : (s.begin i).time = s.time := rfl
@[simp] theorem State.begin_fsm : (s.begin i).fsm = .run := rfl
@[simp] theorem State.begin_out : (s.begin i).out = s.out := rfl
@[simp] theorem State.begin_opr : (s.begin i).opr = some i := rfl
@[simp] theorem State.begin_start : (s.begin i).start = s.time + 1 := rfl
@[simp] theorem State.begin_c : (s.begin i).c = 0 := rfl
@[simp] theorem State.begin_sh : (s.begin i).sh = s.sh := rfl
@[simp] theorem State.begin_bi : (s.begin i).bi = s.bi := rfl
@[simp] theorem State.begin_ph : (s.begin i).ph = s.ph := rfl
@[simp] theorem State.begin_pk : (s.begin i).pk = s.pk := rfl
@[simp] theorem State.begin_div : (s.begin i).div = s.div := rfl
@[simp] theorem State.begin_bit : (s.begin i).bit = s.bit := rfl
@[simp] theorem State.begin_rdata : (s.begin i).rdata = s.rdata := rfl
@[simp] theorem State.begin_history : (s.begin i).history = s.history := rfl
@[simp] theorem State.begin_inputs : (s.begin i).inputs = s.inputs := rfl
@[simp] theorem State.begin_draws : (s.begin i).draws = s.draws := rfl

end beginFields

section suspendFields

variable (s : State) (n : Nat)

@[simp] theorem State.suspend_params : (s.suspend n).params = s.params := rfl
@[simp] theorem State.suspend_done : (s.suspend n).done = s.done := rfl
@[simp] theorem State.suspend_present : (s.suspend n).present = s.present := rfl
@[simp] theorem State.suspend_ovr : (s.suspend n).ovr = s.ovr := rfl
@[simp] theorem State.suspend_err : (s.suspend n).err = s.err := rfl
@[simp] theorem State.suspend_gate : (s.suspend n).gate = s.gate := rfl
@[simp] theorem State.suspend_rxdata : (s.suspend n).rxdata = s.rxdata := rfl
@[simp] theorem State.suspend_temp : (s.suspend n).temp = s.temp := rfl
@[simp] theorem State.suspend_time : (s.suspend n).time = s.time := rfl
@[simp] theorem State.suspend_fsm : (s.suspend n).fsm = s.fsm := rfl
@[simp] theorem State.suspend_out : (s.suspend n).out = s.out := rfl
@[simp] theorem State.suspend_opr : (s.suspend n).opr = s.opr := rfl
@[simp] theorem State.suspend_start : (s.suspend n).start = s.start := rfl
@[simp] theorem State.suspend_c : (s.suspend n).c = s.c + .ofNat 16 n := rfl
@[simp] theorem State.suspend_sh : (s.suspend n).sh = s.sh := rfl
@[simp] theorem State.suspend_bi : (s.suspend n).bi = s.bi := rfl
@[simp] theorem State.suspend_ph : (s.suspend n).ph = s.ph := rfl
@[simp] theorem State.suspend_pk : (s.suspend n).pk = s.pk := rfl
@[simp] theorem State.suspend_div : (s.suspend n).div = s.div := rfl
@[simp] theorem State.suspend_bit : (s.suspend n).bit = s.bit := rfl
@[simp] theorem State.suspend_rdata : (s.suspend n).rdata = s.rdata := rfl
@[simp] theorem State.suspend_history : (s.suspend n).history = s.history := rfl
@[simp] theorem State.suspend_inputs : (s.suspend n).inputs = s.inputs := rfl
@[simp] theorem State.suspend_draws : (s.suspend n).draws = s.draws := rfl

end suspendFields

section accumulateFields

variable (s : State) (i : Nat)

@[simp] theorem State.accumulate_params : (s.accumulate i).params = s.params := rfl
@[simp] theorem State.accumulate_done : (s.accumulate i).done = s.done := rfl
@[simp] theorem State.accumulate_present : (s.accumulate i).present = s.present := rfl
@[simp] theorem State.accumulate_ovr : (s.accumulate i).ovr = s.ovr := rfl
@[simp] theorem State.accumulate_err : (s.accumulate i).err = s.err := rfl
@[simp] theorem State.accumulate_gate : (s.accumulate i).gate = s.gate := rfl
@[simp] theorem State.accumulate_rxdata : (s.accumulate i).rxdata = s.rxdata := rfl
@[simp] theorem State.accumulate_temp : (s.accumulate i).temp = s.temp := rfl
@[simp] theorem State.accumulate_time : (s.accumulate i).time = s.time := rfl
@[simp] theorem State.accumulate_fsm : (s.accumulate i).fsm = s.fsm := rfl
@[simp] theorem State.accumulate_out : (s.accumulate i).out = s.out := rfl
@[simp] theorem State.accumulate_opr : (s.accumulate i).opr = s.opr := rfl
@[simp] theorem State.accumulate_start : (s.accumulate i).start = s.start := rfl
@[simp] theorem State.accumulate_c : (s.accumulate i).c = s.c := rfl
@[simp] theorem State.accumulate_sh : (s.accumulate i).sh = s.sh ||| bitByte s.bit <<< i := rfl
@[simp] theorem State.accumulate_bi : (s.accumulate i).bi = s.bi := rfl
@[simp] theorem State.accumulate_ph : (s.accumulate i).ph = s.ph := rfl
@[simp] theorem State.accumulate_pk : (s.accumulate i).pk = s.pk := rfl
@[simp] theorem State.accumulate_div : (s.accumulate i).div = s.div := rfl
@[simp] theorem State.accumulate_bit : (s.accumulate i).bit = s.bit := rfl
@[simp] theorem State.accumulate_rdata : (s.accumulate i).rdata = s.rdata := rfl
@[simp] theorem State.accumulate_history : (s.accumulate i).history = s.history := rfl
@[simp] theorem State.accumulate_inputs : (s.accumulate i).inputs = s.inputs := rfl
@[simp] theorem State.accumulate_draws : (s.accumulate i).draws = s.draws := rfl

end accumulateFields

section latchBitFields

variable (s : State)

@[simp] theorem State.latchBit_params : (s.latchBit).params = s.params := rfl
@[simp] theorem State.latchBit_done : (s.latchBit).done = s.done := rfl
@[simp] theorem State.latchBit_present : (s.latchBit).present = s.present := rfl
@[simp] theorem State.latchBit_ovr : (s.latchBit).ovr = s.ovr := rfl
@[simp] theorem State.latchBit_err : (s.latchBit).err = s.err := rfl
@[simp] theorem State.latchBit_gate : (s.latchBit).gate = s.gate := rfl
@[simp] theorem State.latchBit_rxdata : (s.latchBit).rxdata = bitByte s.bit := rfl
@[simp] theorem State.latchBit_temp : (s.latchBit).temp = s.temp := rfl
@[simp] theorem State.latchBit_time : (s.latchBit).time = s.time := rfl
@[simp] theorem State.latchBit_fsm : (s.latchBit).fsm = s.fsm := rfl
@[simp] theorem State.latchBit_out : (s.latchBit).out = s.out := rfl
@[simp] theorem State.latchBit_opr : (s.latchBit).opr = s.opr := rfl
@[simp] theorem State.latchBit_start : (s.latchBit).start = s.start := rfl
@[simp] theorem State.latchBit_c : (s.latchBit).c = s.c := rfl
@[simp] theorem State.latchBit_sh : (s.latchBit).sh = s.sh := rfl
@[simp] theorem State.latchBit_bi : (s.latchBit).bi = s.bi := rfl
@[simp] theorem State.latchBit_ph : (s.latchBit).ph = s.ph := rfl
@[simp] theorem State.latchBit_pk : (s.latchBit).pk = s.pk := rfl
@[simp] theorem State.latchBit_div : (s.latchBit).div = s.div := rfl
@[simp] theorem State.latchBit_bit : (s.latchBit).bit = s.bit := rfl
@[simp] theorem State.latchBit_rdata : (s.latchBit).rdata = s.rdata := rfl
@[simp] theorem State.latchBit_history : (s.latchBit).history = s.history := rfl
@[simp] theorem State.latchBit_inputs : (s.latchBit).inputs = s.inputs := rfl
@[simp] theorem State.latchBit_draws : (s.latchBit).draws = s.draws := rfl

end latchBitFields

section latchByteFields

variable (s : State)

@[simp] theorem State.latchByte_params : (s.latchByte).params = s.params := rfl
@[simp] theorem State.latchByte_done : (s.latchByte).done = s.done := rfl
@[simp] theorem State.latchByte_present : (s.latchByte).present = s.present := rfl
@[simp] theorem State.latchByte_ovr : (s.latchByte).ovr = s.ovr := rfl
@[simp] theorem State.latchByte_err : (s.latchByte).err = s.err := rfl
@[simp] theorem State.latchByte_gate : (s.latchByte).gate = s.gate := rfl
@[simp] theorem State.latchByte_rxdata : (s.latchByte).rxdata = s.sh := rfl
@[simp] theorem State.latchByte_temp : (s.latchByte).temp = s.temp := rfl
@[simp] theorem State.latchByte_time : (s.latchByte).time = s.time := rfl
@[simp] theorem State.latchByte_fsm : (s.latchByte).fsm = s.fsm := rfl
@[simp] theorem State.latchByte_out : (s.latchByte).out = s.out := rfl
@[simp] theorem State.latchByte_opr : (s.latchByte).opr = s.opr := rfl
@[simp] theorem State.latchByte_start : (s.latchByte).start = s.start := rfl
@[simp] theorem State.latchByte_c : (s.latchByte).c = s.c := rfl
@[simp] theorem State.latchByte_sh : (s.latchByte).sh = s.sh := rfl
@[simp] theorem State.latchByte_bi : (s.latchByte).bi = s.bi := rfl
@[simp] theorem State.latchByte_ph : (s.latchByte).ph = s.ph := rfl
@[simp] theorem State.latchByte_pk : (s.latchByte).pk = s.pk := rfl
@[simp] theorem State.latchByte_div : (s.latchByte).div = s.div := rfl
@[simp] theorem State.latchByte_bit : (s.latchByte).bit = s.bit := rfl
@[simp] theorem State.latchByte_rdata : (s.latchByte).rdata = s.rdata := rfl
@[simp] theorem State.latchByte_history : (s.latchByte).history = s.history := rfl
@[simp] theorem State.latchByte_inputs : (s.latchByte).inputs = s.inputs := rfl
@[simp] theorem State.latchByte_draws : (s.latchByte).draws = s.draws := rfl

end latchByteFields

section setTimeFields

variable (s : State) (t : Word)

@[simp] theorem State.setTime_params : (s.setTime t).params = s.params := rfl
@[simp] theorem State.setTime_done : (s.setTime t).done = s.done := rfl
@[simp] theorem State.setTime_present : (s.setTime t).present = s.present := rfl
@[simp] theorem State.setTime_ovr : (s.setTime t).ovr = s.ovr := rfl
@[simp] theorem State.setTime_err : (s.setTime t).err = s.err := rfl
@[simp] theorem State.setTime_gate : (s.setTime t).gate = s.gate := rfl
@[simp] theorem State.setTime_rxdata : (s.setTime t).rxdata = s.rxdata := rfl
@[simp] theorem State.setTime_temp : (s.setTime t).temp = s.temp := rfl
@[simp] theorem State.setTime_time : (s.setTime t).time = t := rfl
@[simp] theorem State.setTime_fsm : (s.setTime t).fsm = s.fsm := rfl
@[simp] theorem State.setTime_out : (s.setTime t).out = s.out := rfl
@[simp] theorem State.setTime_opr : (s.setTime t).opr = s.opr := rfl
@[simp] theorem State.setTime_start : (s.setTime t).start = s.start := rfl
@[simp] theorem State.setTime_c : (s.setTime t).c = s.c := rfl
@[simp] theorem State.setTime_sh : (s.setTime t).sh = s.sh := rfl
@[simp] theorem State.setTime_bi : (s.setTime t).bi = s.bi := rfl
@[simp] theorem State.setTime_ph : (s.setTime t).ph = s.ph := rfl
@[simp] theorem State.setTime_pk : (s.setTime t).pk = s.pk := rfl
@[simp] theorem State.setTime_div : (s.setTime t).div = s.div := rfl
@[simp] theorem State.setTime_bit : (s.setTime t).bit = s.bit := rfl
@[simp] theorem State.setTime_rdata : (s.setTime t).rdata = s.rdata := rfl
@[simp] theorem State.setTime_history : (s.setTime t).history = s.history := rfl
@[simp] theorem State.setTime_inputs : (s.setTime t).inputs = s.inputs := rfl
@[simp] theorem State.setTime_draws : (s.setTime t).draws = s.draws := rfl

end setTimeFields

section advanceTimeFields

variable (s : State)

@[simp] theorem State.advanceTime_params : (s.advanceTime).params = s.params := rfl
@[simp] theorem State.advanceTime_done : (s.advanceTime).done = s.done := rfl
@[simp] theorem State.advanceTime_present : (s.advanceTime).present = s.present := rfl
@[simp] theorem State.advanceTime_ovr : (s.advanceTime).ovr = s.ovr := rfl
@[simp] theorem State.advanceTime_err : (s.advanceTime).err = s.err := rfl
@[simp] theorem State.advanceTime_gate : (s.advanceTime).gate = s.gate := rfl
@[simp] theorem State.advanceTime_rxdata : (s.advanceTime).rxdata = s.rxdata := rfl
@[simp] theorem State.advanceTime_temp : (s.advanceTime).temp = s.temp := rfl
@[simp] theorem State.advanceTime_time : (s.advanceTime).time = s.time + 1 := rfl
@[simp] theorem State.advanceTime_fsm : (s.advanceTime).fsm = s.fsm := rfl
@[simp] theorem State.advanceTime_out : (s.advanceTime).out = s.out := rfl
@[simp] theorem State.advanceTime_opr : (s.advanceTime).opr = s.opr := rfl
@[simp] theorem State.advanceTime_start : (s.advanceTime).start = s.start := rfl
@[simp] theorem State.advanceTime_c : (s.advanceTime).c = s.c := rfl
@[simp] theorem State.advanceTime_sh : (s.advanceTime).sh = s.sh := rfl
@[simp] theorem State.advanceTime_bi : (s.advanceTime).bi = s.bi := rfl
@[simp] theorem State.advanceTime_ph : (s.advanceTime).ph = s.ph := rfl
@[simp] theorem State.advanceTime_pk : (s.advanceTime).pk = s.pk := rfl
@[simp] theorem State.advanceTime_div : (s.advanceTime).div = s.div := rfl
@[simp] theorem State.advanceTime_bit : (s.advanceTime).bit = s.bit := rfl
@[simp] theorem State.advanceTime_rdata : (s.advanceTime).rdata = s.rdata := rfl
@[simp] theorem State.advanceTime_history : (s.advanceTime).history = s.history := rfl
@[simp] theorem State.advanceTime_inputs : (s.advanceTime).inputs = s.inputs := rfl
@[simp] theorem State.advanceTime_draws : (s.advanceTime).draws = s.draws := rfl

end advanceTimeFields

section noteSampleFields

variable (s : State) (env : Bool)

@[simp] theorem State.noteSample_params : (s.noteSample env).params = s.params := rfl
@[simp] theorem State.noteSample_done : (s.noteSample env).done = s.done := rfl
@[simp] theorem State.noteSample_present : (s.noteSample env).present = s.present := rfl
@[simp] theorem State.noteSample_ovr : (s.noteSample env).ovr = s.ovr := rfl
@[simp] theorem State.noteSample_err : (s.noteSample env).err = s.err := rfl
@[simp] theorem State.noteSample_gate : (s.noteSample env).gate = s.gate := rfl
@[simp] theorem State.noteSample_rxdata : (s.noteSample env).rxdata = s.rxdata := rfl
@[simp] theorem State.noteSample_temp : (s.noteSample env).temp = s.temp := rfl
@[simp] theorem State.noteSample_time : (s.noteSample env).time = s.time := rfl
@[simp] theorem State.noteSample_fsm : (s.noteSample env).fsm = s.fsm := rfl
@[simp] theorem State.noteSample_out : (s.noteSample env).out = s.out := rfl
@[simp] theorem State.noteSample_opr : (s.noteSample env).opr = s.opr := rfl
@[simp] theorem State.noteSample_start : (s.noteSample env).start = s.start := rfl
@[simp] theorem State.noteSample_c : (s.noteSample env).c = s.c := rfl
@[simp] theorem State.noteSample_sh : (s.noteSample env).sh = s.sh := rfl
@[simp] theorem State.noteSample_bi : (s.noteSample env).bi = s.bi := rfl
@[simp] theorem State.noteSample_ph : (s.noteSample env).ph = s.ph := rfl
@[simp] theorem State.noteSample_pk : (s.noteSample env).pk = s.pk := rfl
@[simp] theorem State.noteSample_div : (s.noteSample env).div = s.div := rfl
@[simp] theorem State.noteSample_bit : (s.noteSample env).bit = s.bit := rfl
@[simp] theorem State.noteSample_rdata : (s.noteSample env).rdata = s.rdata := rfl
@[simp] theorem State.noteSample_history : (s.noteSample env).history = .sample s.time (s.level env) :: s.history := rfl
@[simp] theorem State.noteSample_inputs : (s.noteSample env).inputs = s.inputs := rfl
@[simp] theorem State.noteSample_draws : (s.noteSample env).draws = s.draws := rfl

end noteSampleFields

section sampleBitFields

variable (s : State) (env : Bool)

@[simp] theorem State.sampleBit_params : (s.sampleBit env).params = s.params := rfl
@[simp] theorem State.sampleBit_done : (s.sampleBit env).done = s.done := rfl
@[simp] theorem State.sampleBit_present : (s.sampleBit env).present = s.present := rfl
@[simp] theorem State.sampleBit_ovr : (s.sampleBit env).ovr = s.ovr := rfl
@[simp] theorem State.sampleBit_err : (s.sampleBit env).err = s.err := rfl
@[simp] theorem State.sampleBit_gate : (s.sampleBit env).gate = s.gate := rfl
@[simp] theorem State.sampleBit_rxdata : (s.sampleBit env).rxdata = s.rxdata := rfl
@[simp] theorem State.sampleBit_temp : (s.sampleBit env).temp = s.temp := rfl
@[simp] theorem State.sampleBit_time : (s.sampleBit env).time = s.time := rfl
@[simp] theorem State.sampleBit_fsm : (s.sampleBit env).fsm = s.fsm := rfl
@[simp] theorem State.sampleBit_out : (s.sampleBit env).out = s.out := rfl
@[simp] theorem State.sampleBit_opr : (s.sampleBit env).opr = s.opr := rfl
@[simp] theorem State.sampleBit_start : (s.sampleBit env).start = s.start := rfl
@[simp] theorem State.sampleBit_c : (s.sampleBit env).c = s.c := rfl
@[simp] theorem State.sampleBit_sh : (s.sampleBit env).sh = s.sh := rfl
@[simp] theorem State.sampleBit_bi : (s.sampleBit env).bi = s.bi := rfl
@[simp] theorem State.sampleBit_ph : (s.sampleBit env).ph = s.ph := rfl
@[simp] theorem State.sampleBit_pk : (s.sampleBit env).pk = s.pk := rfl
@[simp] theorem State.sampleBit_div : (s.sampleBit env).div = s.div := rfl
@[simp] theorem State.sampleBit_bit : (s.sampleBit env).bit = s.level env := rfl
@[simp] theorem State.sampleBit_rdata : (s.sampleBit env).rdata = s.rdata := rfl
@[simp] theorem State.sampleBit_history : (s.sampleBit env).history = .sample s.time (s.level env) :: s.history := rfl
@[simp] theorem State.sampleBit_inputs : (s.sampleBit env).inputs = s.inputs := rfl
@[simp] theorem State.sampleBit_draws : (s.sampleBit env).draws = s.draws := rfl

end sampleBitFields

section setOutFields

variable (s : State) (o : LineOut)

@[simp] theorem State.setOut_params : (s.setOut o).params = s.params := by unfold State.setOut; split <;> rfl
@[simp] theorem State.setOut_done : (s.setOut o).done = s.done := by unfold State.setOut; split <;> rfl
@[simp] theorem State.setOut_present : (s.setOut o).present = s.present := by unfold State.setOut; split <;> rfl
@[simp] theorem State.setOut_ovr : (s.setOut o).ovr = s.ovr := by unfold State.setOut; split <;> rfl
@[simp] theorem State.setOut_err : (s.setOut o).err = s.err := by unfold State.setOut; split <;> rfl
@[simp] theorem State.setOut_gate : (s.setOut o).gate = s.gate := by unfold State.setOut; split <;> rfl
@[simp] theorem State.setOut_rxdata : (s.setOut o).rxdata = s.rxdata := by unfold State.setOut; split <;> rfl
@[simp] theorem State.setOut_temp : (s.setOut o).temp = s.temp := by unfold State.setOut; split <;> rfl
@[simp] theorem State.setOut_time : (s.setOut o).time = s.time := by unfold State.setOut; split <;> rfl
@[simp] theorem State.setOut_fsm : (s.setOut o).fsm = s.fsm := by unfold State.setOut; split <;> rfl
@[simp] theorem State.setOut_out : (s.setOut o).out = o := by unfold State.setOut; split <;> simp_all
@[simp] theorem State.setOut_opr : (s.setOut o).opr = s.opr := by unfold State.setOut; split <;> rfl
@[simp] theorem State.setOut_start : (s.setOut o).start = s.start := by unfold State.setOut; split <;> rfl
@[simp] theorem State.setOut_c : (s.setOut o).c = s.c := by unfold State.setOut; split <;> rfl
@[simp] theorem State.setOut_sh : (s.setOut o).sh = s.sh := by unfold State.setOut; split <;> rfl
@[simp] theorem State.setOut_bi : (s.setOut o).bi = s.bi := by unfold State.setOut; split <;> rfl
@[simp] theorem State.setOut_ph : (s.setOut o).ph = s.ph := by unfold State.setOut; split <;> rfl
@[simp] theorem State.setOut_pk : (s.setOut o).pk = s.pk := by unfold State.setOut; split <;> rfl
@[simp] theorem State.setOut_div : (s.setOut o).div = s.div := by unfold State.setOut; split <;> rfl
@[simp] theorem State.setOut_bit : (s.setOut o).bit = s.bit := by unfold State.setOut; split <;> rfl
@[simp] theorem State.setOut_rdata : (s.setOut o).rdata = s.rdata := by unfold State.setOut; split <;> rfl
@[simp] theorem State.setOut_inputs : (s.setOut o).inputs = s.inputs := by unfold State.setOut; split <;> rfl
@[simp] theorem State.setOut_draws : (s.setOut o).draws = s.draws := by unfold State.setOut; split <;> rfl

end setOutFields

section driveLowFields

variable (s : State)

@[simp] theorem State.driveLow_params : (s.driveLow).params = s.params := State.setOut_params s _
@[simp] theorem State.driveLow_done : (s.driveLow).done = s.done := State.setOut_done s _
@[simp] theorem State.driveLow_present : (s.driveLow).present = s.present := State.setOut_present s _
@[simp] theorem State.driveLow_ovr : (s.driveLow).ovr = s.ovr := State.setOut_ovr s _
@[simp] theorem State.driveLow_err : (s.driveLow).err = s.err := State.setOut_err s _
@[simp] theorem State.driveLow_gate : (s.driveLow).gate = s.gate := State.setOut_gate s _
@[simp] theorem State.driveLow_rxdata : (s.driveLow).rxdata = s.rxdata := State.setOut_rxdata s _
@[simp] theorem State.driveLow_temp : (s.driveLow).temp = s.temp := State.setOut_temp s _
@[simp] theorem State.driveLow_time : (s.driveLow).time = s.time := State.setOut_time s _
@[simp] theorem State.driveLow_fsm : (s.driveLow).fsm = s.fsm := State.setOut_fsm s _
@[simp] theorem State.driveLow_out : (s.driveLow).out = .low := State.setOut_out s _
@[simp] theorem State.driveLow_opr : (s.driveLow).opr = s.opr := State.setOut_opr s _
@[simp] theorem State.driveLow_start : (s.driveLow).start = s.start := State.setOut_start s _
@[simp] theorem State.driveLow_c : (s.driveLow).c = s.c := State.setOut_c s _
@[simp] theorem State.driveLow_sh : (s.driveLow).sh = s.sh := State.setOut_sh s _
@[simp] theorem State.driveLow_bi : (s.driveLow).bi = s.bi := State.setOut_bi s _
@[simp] theorem State.driveLow_ph : (s.driveLow).ph = s.ph := State.setOut_ph s _
@[simp] theorem State.driveLow_pk : (s.driveLow).pk = s.pk := State.setOut_pk s _
@[simp] theorem State.driveLow_div : (s.driveLow).div = s.div := State.setOut_div s _
@[simp] theorem State.driveLow_bit : (s.driveLow).bit = s.bit := State.setOut_bit s _
@[simp] theorem State.driveLow_rdata : (s.driveLow).rdata = s.rdata := State.setOut_rdata s _
@[simp] theorem State.driveLow_inputs : (s.driveLow).inputs = s.inputs := State.setOut_inputs s _
@[simp] theorem State.driveLow_draws : (s.driveLow).draws = s.draws := State.setOut_draws s _

end driveLowFields

section releaseFields

variable (s : State)

@[simp] theorem State.release_params : (s.release).params = s.params := State.setOut_params s _
@[simp] theorem State.release_done : (s.release).done = s.done := State.setOut_done s _
@[simp] theorem State.release_present : (s.release).present = s.present := State.setOut_present s _
@[simp] theorem State.release_ovr : (s.release).ovr = s.ovr := State.setOut_ovr s _
@[simp] theorem State.release_err : (s.release).err = s.err := State.setOut_err s _
@[simp] theorem State.release_gate : (s.release).gate = s.gate := State.setOut_gate s _
@[simp] theorem State.release_rxdata : (s.release).rxdata = s.rxdata := State.setOut_rxdata s _
@[simp] theorem State.release_temp : (s.release).temp = s.temp := State.setOut_temp s _
@[simp] theorem State.release_time : (s.release).time = s.time := State.setOut_time s _
@[simp] theorem State.release_fsm : (s.release).fsm = s.fsm := State.setOut_fsm s _
@[simp] theorem State.release_out : (s.release).out = .released := State.setOut_out s _
@[simp] theorem State.release_opr : (s.release).opr = s.opr := State.setOut_opr s _
@[simp] theorem State.release_start : (s.release).start = s.start := State.setOut_start s _
@[simp] theorem State.release_c : (s.release).c = s.c := State.setOut_c s _
@[simp] theorem State.release_sh : (s.release).sh = s.sh := State.setOut_sh s _
@[simp] theorem State.release_bi : (s.release).bi = s.bi := State.setOut_bi s _
@[simp] theorem State.release_ph : (s.release).ph = s.ph := State.setOut_ph s _
@[simp] theorem State.release_pk : (s.release).pk = s.pk := State.setOut_pk s _
@[simp] theorem State.release_div : (s.release).div = s.div := State.setOut_div s _
@[simp] theorem State.release_bit : (s.release).bit = s.bit := State.setOut_bit s _
@[simp] theorem State.release_rdata : (s.release).rdata = s.rdata := State.setOut_rdata s _
@[simp] theorem State.release_inputs : (s.release).inputs = s.inputs := State.setOut_inputs s _
@[simp] theorem State.release_draws : (s.release).draws = s.draws := State.setOut_draws s _

end releaseFields

section completeFields

variable (s : State) (e : ErrCode)

@[simp] theorem State.complete_params : (s.complete e).params = s.params := State.release_params s
@[simp] theorem State.complete_done : (s.complete e).done = true := rfl
@[simp] theorem State.complete_present : (s.complete e).present = s.present := State.release_present s
@[simp] theorem State.complete_ovr : (s.complete e).ovr = s.ovr := State.release_ovr s
@[simp] theorem State.complete_err : (s.complete e).err = e := rfl
@[simp] theorem State.complete_gate : (s.complete e).gate = s.gate := State.release_gate s
@[simp] theorem State.complete_rxdata : (s.complete e).rxdata = s.rxdata := State.release_rxdata s
@[simp] theorem State.complete_temp : (s.complete e).temp = s.temp := State.release_temp s
@[simp] theorem State.complete_time : (s.complete e).time = s.time := State.release_time s
@[simp] theorem State.complete_fsm : (s.complete e).fsm = .idle := rfl
@[simp] theorem State.complete_out : (s.complete e).out = .released := State.release_out s
@[simp] theorem State.complete_opr : (s.complete e).opr = s.opr := State.release_opr s
@[simp] theorem State.complete_start : (s.complete e).start = s.start := State.release_start s
@[simp] theorem State.complete_c : (s.complete e).c = s.c := State.release_c s
@[simp] theorem State.complete_sh : (s.complete e).sh = s.sh := State.release_sh s
@[simp] theorem State.complete_bi : (s.complete e).bi = s.bi := State.release_bi s
@[simp] theorem State.complete_ph : (s.complete e).ph = s.ph := State.release_ph s
@[simp] theorem State.complete_pk : (s.complete e).pk = s.pk := State.release_pk s
@[simp] theorem State.complete_div : (s.complete e).div = s.div := State.release_div s
@[simp] theorem State.complete_bit : (s.complete e).bit = s.bit := State.release_bit s
@[simp] theorem State.complete_rdata : (s.complete e).rdata = s.rdata := State.release_rdata s
@[simp] theorem State.complete_history : (s.complete e).history = s.release.history := rfl
@[simp] theorem State.complete_inputs : (s.complete e).inputs = s.inputs := State.release_inputs s
@[simp] theorem State.complete_draws : (s.complete e).draws = s.draws := State.release_draws s

end completeFields

end Sys2Proof.Machine
end

