-- ==== Sys2Proof/Laws/Ops.lean ====
section
/-! SUPPORT. What each shared operation of Machine/Ops.lean and Machine/Detector.lean can do, said once. -/
namespace Sys2Proof.Machine

theorem State.busy_eq_true {s : State} : s.busy = true ↔ s.fsm = .run := by
  simp [State.busy]

theorem State.busy_eq_false {s : State} : s.busy = false ↔ s.fsm = .idle := by
  cases h : s.fsm <;> simp [State.busy, h]

/-- A busy OWC drops whatever is issued (60_exceptions.md R236). -/
theorem State.issue_busy {s : State} (h : s.busy = true) (f : State → State) : s.issue f = s.drop := by
  simp [State.issue, h]

/-- An idle OWC accepts whatever is issued (40_timing.md R102). -/
theorem State.issue_idle {s : State} (h : s.busy = false) (f : State → State) : s.issue f = f s.clearFlags := by
  simp [State.issue, h]

theorem State.gated_open {s : State} (h : s.gateOpen = true) (f : State → State) : s.gated f = f s := by
  simp [State.gated, h]

theorem State.gated_shut {s : State} (h : s.gateOpen = false) (f : State → State) :
    s.gated f = s.finish .notInit := by
  simp [State.gated, h]

@[simp] theorem State.clearFlags_gateOpen (s : State) : s.clearFlags.gateOpen = s.gateOpen := rfl

theorem State.gateOpen_eq_true {s : State} : s.gateOpen = true ↔ s.gate = false ∨ s.present = true := by
  simp [State.gateOpen]

theorem State.gateOpen_eq_false {s : State} : s.gateOpen = false ↔ s.gate = true ∧ s.present = false := by
  simp [State.gateOpen]

/-- Setting OUT to what it is changes nothing, the history included. -/
theorem State.setOut_same {s : State} {o : LineOut} (h : s.out = o) : s.setOut o = s := by
  simp [State.setOut, h]

theorem State.setOut_change {s : State} {o : LineOut} (h : s.out ≠ o) :
    s.setOut o = { s with out := o, history := .out s.time o :: s.history } := by
  simp [State.setOut, h]

theorem State.release_released {s : State} (h : s.out = .released) : s.release = s := State.setOut_same h

theorem State.level_low {s : State} (h : s.out = .low) (env : Bool) : s.level env = false := by
  simp [State.level, h]

theorem State.level_released {s : State} (h : s.out = .released) (env : Bool) : s.level env = env := by
  simp [State.level, h]

@[simp] theorem State.noteSample_level (s : State) (e env : Bool) : (s.noteSample e).level env = s.level env := rfl

/-- A completion with the line released changes only FSM, DONE and ERR. -/
theorem State.complete_released {s : State} (h : s.out = .released) (e : ErrCode) :
    s.complete e = { s with fsm := .idle, done := true, err := e } := by
  simp [State.complete, State.release_released h]

/-- What a turn of phase A can do. -/
theorem State.detectHigh_eq (env : Bool) (s : State) :
    s.detectHigh env =
      if s.level env then { s.noteSample env with pk := s.pk + 1, c := s.c + 1 }
      else { s.noteSample env with ph := .b, pk := 1, c := s.c + 1 } := by
  unfold State.detectHigh State.suspend
  split <;> rfl

/-- What a turn of phase B can do. -/
theorem State.detectLow_eq (env : Bool) (s : State) :
    s.detectLow env =
      if s.level env then { s.noteSample env with present := true }.complete .none
      else { s.noteSample env with pk := s.pk + 1, c := s.c + 1 } := by
  unfold State.detectLow State.suspend
  split <;> rfl

end Sys2Proof.Machine
end

