-- ==== Sys2Proof/Laws/Tick.lean ====
section
/-! SUPPORT. What a tick step and a run of tick steps can do (40_timing.md R103): the lemmas that a claim about an
operation's ticks cites instead of unfolding the step. -/
namespace Sys2Proof.Machine

@[simp] theorem State.ticks_nil (s : State) : s.ticks [] = s := rfl

@[simp] theorem State.ticks_cons (s : State) (env : Bool) (es : List Bool) :
    s.ticks (env :: es) = (s.tickStep env).ticks es := rfl

theorem State.ticks_append (s : State) (es fs : List Bool) : s.ticks (es ++ fs) = (s.ticks es).ticks fs := by
  simp [State.ticks]

/-- A tick step at which nothing resumes only advances TIME. -/
theorem State.tickStep_waiting {s : State} (h : ¬(s.fsm = .run ∧ s.time + 1 = s.resumeAt)) (env : Bool) :
    s.tickStep env = s.advanceTime := if_neg h

/-- A tick step at S + C resumes the operation. -/
theorem State.tickStep_resume {s : State} (hr : s.fsm = .run) (ht : s.time + 1 = s.resumeAt) (env : Bool) :
    s.tickStep env = s.advanceTime.resume env := if_pos ⟨hr, ht⟩

@[simp] theorem State.setTime_resumeAt (s : State) (t : Word) : (s.setTime t).resumeAt = s.resumeAt := rfl

@[simp] theorem State.setTime_setTime (s : State) (t u : Word) : (s.setTime t).setTime u = s.setTime u := rfl

@[simp] theorem State.setTime_self (s : State) : s.setTime s.time = s := rfl

/-- While the next resumption is n ticks ahead, fewer ticks than n only advance TIME. -/
theorem State.ticks_waiting {n : Nat} (hn : n < 2 ^ 32) :
    ∀ (es : List Bool) (s : State), s.fsm = .run → s.resumeAt = s.time + BitVec.ofNat 32 n → es.length < n →
      s.ticks es = s.setTime (s.time + BitVec.ofNat 32 es.length) := by
  intro es
  induction es using List.reverseRecOn with
  | nil => intro s _ _ _; simp
  | append_singleton es e ih =>
    intro s hr ht hl
    simp only [List.length_append, List.length_singleton] at hl
    rw [State.ticks_append, ih s hr ht (by omega), State.ticks_cons, State.ticks_nil, State.tickStep_waiting]
    · simp only [State.advanceTime, State.setTime_time, State.setTime_setTime, List.length_append,
        List.length_singleton]
      congr 1
      bv_omega
    · simp only [State.setTime_time, State.setTime_resumeAt, ht]
      rintro ⟨-, h⟩
      bv_omega

/-- Where the next resumption is n ticks ahead, the n-th tick resumes the operation. -/
theorem State.ticks_resume {n : Nat} (hn : n < 2 ^ 32) (es : List Bool) (e : Bool) (s : State) (hr : s.fsm = .run)
    (ht : s.resumeAt = s.time + BitVec.ofNat 32 n) (hl : es.length + 1 = n) :
    s.ticks (es ++ [e]) = (s.setTime (s.time + BitVec.ofNat 32 n)).resume e := by
  subst hl
  rw [State.ticks_append, State.ticks_waiting hn es s hr ht (by omega), State.ticks_cons, State.ticks_nil,
    State.tickStep_resume (s := s.setTime (s.time + BitVec.ofNat 32 es.length)) hr]
  · simp only [State.advanceTime, State.setTime_time, State.setTime_setTime]
    congr 2
    bv_omega
  · simp only [State.setTime_time, State.setTime_resumeAt, ht]
    bv_omega

/-- What running actions leaves alone: everything but the line, the offset, the framer's and the detector's
registers, the flags of a completion and the history. -/
theorem runActions_frame (env : Bool) (l : List Action) (s : State) :
    (runActions env l s).params = s.params ∧ (runActions env l s).gate = s.gate ∧
    (runActions env l s).temp = s.temp ∧ (runActions env l s).time = s.time ∧
    (runActions env l s).ovr = s.ovr ∧ (runActions env l s).opr = s.opr ∧
    (runActions env l s).start = s.start ∧ (runActions env l s).div = s.div ∧
    (runActions env l s).rdata = s.rdata ∧ (runActions env l s).inputs = s.inputs ∧
    (runActions env l s).draws = s.draws := by
  induction l generalizing s with
  | nil => simp [runActions]
  | cons a l ih =>
    cases a with
    | wait n =>
      by_cases hn : n = 0
      · simpa [runActions, hn] using ih s
      · simp [runActions, hn]
    | detect =>
      simp only [runActions, State.detectFirst, State.detectHigh_eq]
      split <;> simp
    | detectNext =>
      simp only [runActions, State.detectNext]
      split
      · split
        · simp
        · rw [State.detectHigh_eq]; split <;> simp
      · split
        · simp
        · rw [State.detectLow_eq]; split <;> simp
    | driveLow => simpa [runActions] using ih s.driveLow
    | release => simpa [runActions] using ih s.release
    | sample => simpa [runActions] using ih (s.sampleBit env)
    | setBi i => simpa [runActions] using ih { s with bi := .ofNat 3 i }
    | clearSh => simpa [runActions] using ih { s with sh := 0 }
    | accumulate i => simpa [runActions] using ih (s.accumulate i)
    | latchBit => simpa [runActions] using ih s.latchBit
    | latchByte => simpa [runActions] using ih s.latchByte

/-- Running actions either suspends, with FSM, DONE, ERR and PRESENT as they were, or completes (60_exceptions.md
R233). -/
theorem runActions_outcome (env : Bool) (l : List Action) (s : State) :
    ((runActions env l s).fsm = s.fsm ∧ (runActions env l s).done = s.done ∧ (runActions env l s).err = s.err ∧
      (runActions env l s).present = s.present) ∨
    ((runActions env l s).fsm = .idle ∧ (runActions env l s).done = true ∧ (runActions env l s).out = .released) := by
  induction l generalizing s with
  | nil => right; simp [runActions]
  | cons a l ih =>
    cases a with
    | wait n =>
      by_cases hn : n = 0
      · simpa [runActions, hn] using ih s
      · left; simp [runActions, hn]
    | detect =>
      left
      simp only [runActions, State.detectFirst, State.detectHigh_eq]
      split <;> simp
    | detectNext =>
      simp only [runActions, State.detectNext]
      split
      · split
        · right; simp
        · left; rw [State.detectHigh_eq]; split <;> simp
      · split
        · right; simp
        · rw [State.detectLow_eq]
          split
          · right; simp
          · left; simp
    | driveLow => simpa [runActions] using ih s.driveLow
    | release => simpa [runActions] using ih s.release
    | sample => simpa [runActions] using ih (s.sampleBit env)
    | setBi i => simpa [runActions] using ih { s with bi := .ofNat 3 i }
    | clearSh => simpa [runActions] using ih { s with sh := 0 }
    | accumulate i => simpa [runActions] using ih (s.accumulate i)
    | latchBit => simpa [runActions] using ih s.latchBit
    | latchByte => simpa [runActions] using ih s.latchByte

end Sys2Proof.Machine
end

