-- ==== Sys2Proof/Laws/Bus.lean ====
section
/-! SUPPORT. What a move of the surroundings and a step can do, said once. -/
namespace Sys2Proof.Machine

@[simp] theorem Access.read_admissible (r : Reg) : (Access.read r).admissible = true := by cases r <;> decide

@[simp] theorem Access.write_admissible (r : Reg) (v : Word) : (Access.write r v).admissible = true :=
  Access.read_admissible r

@[simp] theorem Access.read_reg (r : Reg) : (Access.read r).reg = r := by cases r <;> decide

@[simp] theorem Access.write_reg (r : Reg) (v : Word) : (Access.write r v).reg = r :=
  Access.read_reg r

@[simp] theorem Access.read_wdata (r : Reg) : (Access.read r).wdata = none := rfl

@[simp] theorem Access.write_wdata (r : Reg) (v : Word) : (Access.write r v).wdata = some v := rfl

/-- An access is admissible exactly when it reads or writes one of the eight registers. -/
theorem Access.admissible_iff (a : Access) :
    a.admissible = true ↔ ∃ r, a = .read r ∨ ∃ v, a = .write r v := by
  constructor
  · intro h
    obtain ⟨off, bytes, wdata⟩ := a
    simp only [Access.admissible, Bool.and_eq_true, beq_iff_eq, decide_eq_true_eq] at h
    obtain ⟨⟨rfl, h4⟩, h32⟩ := h
    have hoff : ∃ r : Reg, off = r.offset := by
      have : off = 0 ∨ off = 4 ∨ off = 8 ∨ off = 12 ∨ off = 16 ∨ off = 20 ∨ off = 24 ∨ off = 28 := by omega
      rcases this with h | h | h | h | h | h | h | h
      exacts [⟨.cmd, h⟩, ⟨.status, h⟩, ⟨.ctrl, h⟩, ⟨.rxdata, h⟩, ⟨.temp, h⟩, ⟨.time, h⟩, ⟨.reserved18, h⟩,
        ⟨.reserved1C, h⟩]
    obtain ⟨r, rfl⟩ := hoff
    cases wdata with
    | none => exact ⟨r, .inl rfl⟩
    | some v => exact ⟨r, .inr ⟨v, rfl⟩⟩
  · rintro ⟨r, rfl | ⟨v, rfl⟩⟩ <;> simp

@[simp] theorem access_read (r : Reg) (s : State) : access (.read r) s = .next { s with rdata := s.regRead r } := by
  simp [access]

@[simp] theorem access_write (r : Reg) (v : Word) (s : State) : access (.write r v) s = regWrite r v s := by
  simp [access]

theorem access_refused {a : Access} (h : a.admissible = false) (s : State) :
    access a s = .refused .accessOutsideInterface := by
  simp [access, h]

theorem command_ok {w : Word} {i : Instr} (h : decode w = .ok i) (s : State) : command w s = exec i s := by
  simp [command, h]

theorem command_error {w : Word} {e : Illegal} (h : decode w = .error e) (s : State) :
    command w s = .next s.issueIllegal := by
  simp [command, h]

/-- A legal instance takes its next move. -/
theorem step_legal {s : State} (h : s.params.Legal) : step s = advance s := if_pos h

theorem step_illegal {s : State} (h : ¬s.params.Legal) : step s = .refused .illegalParameters := if_neg h

theorem advance_nil {s : State} (h : s.inputs = []) : advance s = .next s.freeTick := by
  unfold advance
  rw [h]

theorem advance_cons {s : State} {m : Input} {rest : List Input} (h : s.inputs = m :: rest) :
    advance s = perform m { s with inputs := rest } := by
  unfold advance
  rw [h]

end Sys2Proof.Machine
end

