-- ==== Sys2Proof/Laws/Decode.lean ====
section
/-! SUPPORT. Small facts about words, bytes and the decoder. -/
namespace Sys2Proof

theorem spells_iff (w : Word) (r : Row) : Word.spells w r = true ↔ w &&& r.mask = r.pattern := by
  simp [Word.spells]

/-- The four byte lanes of a word make up the word (20_memory.md R64). -/
theorem decodeBytes_wordBytes (w : Word) : decodeBytes (wordBytes w) = decode w := by
  show decode _ = decode w
  congr 1
  apply BitVec.eq_of_getLsbD_eq
  intro k hk
  have hk' : k < 32 := hk
  interval_cases k <;> simp only [BitVec.getLsbD_append, BitVec.getLsbD_extractLsb'] <;> simp

theorem decodeTableWord_eq_some {nbits w : Nat} {i : Instr} (h : decodeTableWord nbits w = some i) :
    nbits ≤ 32 ∧ decode (tableWord nbits w) = .ok i := by
  unfold decodeTableWord at h
  rw [decodeBytes_wordBytes] at h
  split at h
  · revert h
    cases decode (tableWord nbits w) <;> simp_all
  · cases h

/-- Every command is well formed: its operands have their widths by their types (30_encoding.md R81). -/
theorem Instr.wellFormed_eq_true (i : Instr) : i.wellFormed = true := by
  cases i with
  | delay n => simp [Instr.wellFormed, Instr.toAsm, Asm.wellFormed]; omega
  | writeBit b => cases b <;> rfl
  | writeByte d => simp [Instr.wellFormed, Instr.toAsm, Asm.wellFormed]; omega
  | decode th tl => simp [Instr.wellFormed, Instr.toAsm, Asm.wellFormed]; omega
  | readBit => rfl
  | readByte => rfl
  | reset => rfl
  | presence => rfl
  | init => rfl

end Sys2Proof
end

