-- ==== Sys2Proof/Laws/History.lean ====
section
/-! SUPPORT. What a tick neither reads nor writes, and how the history grows: a tick step commutes with replacing OVR, GATE,
the read port and the model's own fields, and only adds to the history. -/
namespace Sys2Proof.Machine

/-- s with what no tick looks at replaced. -/
def State.unseen (s : State) (o g : Bool) (r : Word) (l : List Input) (n : Nat) : State :=
  { s with ovr := o, gate := g, rdata := r, inputs := l, draws := n }

theorem complete_unseen (s : State) (o g : Bool) (r : Word) (l : List Input) (n : Nat) (c : ErrCode) :
    (s.unseen o g r l n).complete c = (s.complete c).unseen o g r l n := by
  unfold State.complete State.release State.setOut State.unseen
  by_cases h : s.out = .released <;> simp [h]

theorem driveLow_unseen (s : State) (o g : Bool) (r : Word) (l : List Input) (n : Nat) :
    (s.unseen o g r l n).driveLow = (s.driveLow).unseen o g r l n := by
  unfold State.driveLow State.setOut State.unseen
  by_cases h : s.out = .low <;> simp [h]
theorem release_unseen (s : State) (o g : Bool) (r : Word) (l : List Input) (n : Nat) :
    (s.unseen o g r l n).release = (s.release).unseen o g r l n := by
  unfold State.release State.setOut State.unseen
  by_cases h : s.out = .released <;> simp [h]
theorem detectHigh_unseen (env : Bool) (s : State) (o g : Bool) (r : Word) (l : List Input) (n : Nat) :
    (s.unseen o g r l n).detectHigh env = (s.detectHigh env).unseen o g r l n := by
  rw [State.detectHigh_eq, State.detectHigh_eq]
  have : (s.unseen o g r l n).level env = s.level env := rfl
  rw [this]
  split <;> rfl
theorem detectLow_unseen (env : Bool) (s : State) (o g : Bool) (r : Word) (l : List Input) (n : Nat) :
    (s.unseen o g r l n).detectLow env = (s.detectLow env).unseen o g r l n := by
  rw [State.detectLow_eq, State.detectLow_eq]
  have : (s.unseen o g r l n).level env = s.level env := rfl
  rw [this]
  split
  · rw [← complete_unseen]; rfl
  · rfl

theorem detectNext_unseen (env : Bool) (s : State) (o g : Bool) (r : Word) (l : List Input) (n : Nat) :
    (s.unseen o g r l n).detectNext env = (s.detectNext env).unseen o g r l n := by
  unfold State.detectNext
  rw [show (s.unseen o g r l n).ph = s.ph from rfl, show (s.unseen o g r l n).pk = s.pk from rfl,
    show (s.unseen o g r l n).params = s.params from rfl]
  cases s.ph with
  | a =>
    dsimp only
    split
    · exact complete_unseen ..
    · exact detectHigh_unseen ..
  | b =>
    dsimp only
    split
    · exact complete_unseen ..
    · exact detectLow_unseen ..

theorem runActions_unseen (env : Bool) (a : List Action) (s : State) (o g : Bool) (r : Word) (l : List Input) (n : Nat) :
    runActions env a (s.unseen o g r l n) = (runActions env a s).unseen o g r l n := by
  induction a generalizing s with
  | nil => exact complete_unseen ..
  | cons x a ih =>
    cases x with
    | wait k =>
      by_cases hk : k = 0
      · simpa [runActions, hk] using ih s
      · simp only [runActions, hk, if_false]; rfl
    | detect => exact detectHigh_unseen env { s with ph := .a, pk := 0 } o g r l n
    | detectNext => exact detectNext_unseen env s o g r l n
    | driveLow => simpa only [runActions, driveLow_unseen] using ih s.driveLow
    | release => simpa only [runActions, release_unseen] using ih s.release
    | sample => exact ih (s.sampleBit env)
    | setBi i => exact ih { s with bi := .ofNat 3 i }
    | clearSh => exact ih { s with sh := 0 }
    | accumulate i => exact ih (s.accumulate i)
    | latchBit => exact ih s.latchBit
    | latchByte => exact ih s.latchByte

theorem State.tickStep_unseen (env : Bool) (s : State) (o g : Bool) (r : Word) (l : List Input) (n : Nat) :
    (s.unseen o g r l n).tickStep env = (s.tickStep env).unseen o g r l n := by
  by_cases h : s.fsm = .run ∧ s.time + 1 = s.resumeAt
  · rw [State.tickStep_resume h.1 h.2, State.tickStep_resume (s := s.unseen o g r l n) h.1 h.2]
    exact runActions_unseen env _ s.advanceTime o g r l n
  · rw [State.tickStep_waiting h, State.tickStep_waiting (s := s.unseen o g r l n) h]
    rfl

theorem State.ticks_unseen (es : List Bool) (s : State) (o g : Bool) (r : Word) (l : List Input) (n : Nat) :
    (s.unseen o g r l n).ticks es = (s.ticks es).unseen o g r l n := by
  induction es generalizing s with
  | nil => rfl
  | cons e es ih => rw [State.ticks_cons, State.ticks_cons, State.tickStep_unseen, ih]

/-! ### The history -/

/-- u's history is s's with new entries before it. -/
def Grown (s u : State) : Prop := ∃ new, u.history = new ++ s.history

theorem Grown.refl (s : State) : Grown s s := ⟨[], rfl⟩

theorem Grown.trans {s t u : State} (h : Grown s t) (k : Grown t u) : Grown s u := by
  obtain ⟨a, ha⟩ := h
  obtain ⟨b, hb⟩ := k
  exact ⟨b ++ a, by rw [hb, ha, List.append_assoc]⟩

theorem setOut_grown (o : LineOut) (s : State) : Grown s (s.setOut o) := by
  by_cases h : s.out = o
  · rw [State.setOut_same h]; exact .refl s
  · rw [State.setOut_change h]; exact ⟨[_], rfl⟩

theorem complete_grown (e : ErrCode) (s : State) : Grown s (s.complete e) := setOut_grown .released s

theorem detectHigh_grown (env : Bool) (s : State) : Grown s (s.detectHigh env) := by
  rw [State.detectHigh_eq]
  split <;> exact ⟨[_], rfl⟩

theorem detectLow_grown (env : Bool) (s : State) : Grown s (s.detectLow env) := by
  rw [State.detectLow_eq]
  split
  · exact Grown.trans ⟨[_], rfl⟩ (complete_grown .none { s.noteSample env with present := true })
  · exact ⟨[_], rfl⟩

/-- Running actions only adds to the history. -/
theorem runActions_grown (env : Bool) (a : List Action) (s : State) : Grown s (runActions env a s) := by
  induction a generalizing s with
  | nil => exact complete_grown .none s
  | cons x a ih =>
    cases x with
    | wait k =>
      by_cases hk : k = 0
      · simpa [runActions, hk] using ih s
      · simp only [runActions, hk, if_false]; exact .refl s
    | detect => exact detectHigh_grown env { s with ph := .a, pk := 0 }
    | detectNext =>
      simp only [runActions, State.detectNext]
      split
      · split
        · exact complete_grown ..
        · exact detectHigh_grown ..
      · split
        · exact complete_grown ..
        · exact detectLow_grown ..
    | driveLow => exact (setOut_grown .low s).trans (ih s.driveLow)
    | release => exact (setOut_grown .released s).trans (ih s.release)
    | sample => exact Grown.trans ⟨[_], rfl⟩ (ih (s.sampleBit env))
    | setBi i => exact ih { s with bi := .ofNat 3 i }
    | clearSh => exact ih { s with sh := 0 }
    | accumulate i => exact ih (s.accumulate i)
    | latchBit => exact ih s.latchBit
    | latchByte => exact ih s.latchByte

/-- A tick step only adds to the history. -/
theorem State.tickStep_grown (env : Bool) (s : State) : Grown s (s.tickStep env) := by
  by_cases h : s.fsm = .run ∧ s.time + 1 = s.resumeAt
  · rw [State.tickStep_resume h.1 h.2]
    exact runActions_grown env _ s.advanceTime
  · rw [State.tickStep_waiting h]
    exact .refl s

theorem State.ticks_grown (es : List Bool) (s : State) : Grown s (s.ticks es) := by
  induction es generalizing s with
  | nil => exact .refl s
  | cons e es ih => exact (State.tickStep_grown e s).trans (ih _)

end Sys2Proof.Machine
end

