-- ==== Sys2Proof/Laws/Parameters.lean ====
section
/-! SUPPORT. Small facts about the parameters. -/
namespace Sys2Proof.Config

theorem fClkHz_pos : 0 < fClkHz := Nat.succ_pos _

theorem tickDivDefault_pos : 0 < tickDivDefault := Nat.succ_pos _

theorem Params.tickDiv_pos (p : Params) : 0 < p.tickDiv := Nat.lt_of_lt_of_le tickDivDefault_pos (Nat.le_add_right _ _)

/-- A tick is never less than a microsecond (40_timing.md R100). -/
theorem Params.tickDiv_ge (p : Params) : fClkHz ≤ 1000000 * p.tickDiv := by
  unfold Params.tickDiv tickDivDefault
  omega

theorem base_aligned : base % 32 = 0 := Nat.mul_mod_right 32 baseBlock

theorem Params.writeSlot_eq (p : Params) (b : Bool) :
    p.writeSlot b = (p.writeShape b).1 + (p.writeShape b).2 := rfl

/-- In a legal instance a write slot drives the line low for at least a tick. -/
theorem Params.writeShape_low_pos {p : Params} (h : p.Legal) (b : Bool) : 1 ≤ (p.writeShape b).1 := by
  unfold Params.Legal at h
  cases b <;> simp [Params.writeShape] <;> omega

/-- In a legal instance a write slot fits the offset counter eight times over. -/
theorem Params.writeSlot_bound {p : Params} (h : p.Legal) (b : Bool) :
    8 * (p.writeSlot b + p.tWbGap) ≤ 65535 := by
  obtain ⟨-, -, -, -, -, -, -, -, -, -, -, -, -, -, hw, -⟩ := h
  have : p.writeSlot b ≤ max (p.writeSlot false) (p.writeSlot true) := by cases b <;> simp
  omega

end Sys2Proof.Config
end

