-- ==== Sys2Proof/Laws/PerInstr.lean ====
section
/-! SUPPORT. The families of statements made command by command (LAWS.json). -/
namespace Sys2Proof

/-- Each command's opcode (30_encoding.md R82). -/
def Instr.op : Instr → Nat
  | .delay _ => 0x1
  | .writeBit _ => 0x2
  | .readBit => 0x3
  | .writeByte _ => 0x4
  | .readByte => 0x5
  | .reset => 0x6
  | .presence => 0x7
  | .init => 0x8
  | .decode _ _ => 0x9

/-- An operand of at most 16 bits, shifted to bit 8, leaves OP and Z0 to the opcode. -/
theorem low_byte_of_operand (a k : Word) : (a <<< 8 ||| k).extractLsb' 0 8 = k.extractLsb' 0 8 := by
  apply BitVec.eq_of_getLsbD_eq
  intro j hj
  have : j < 8 := hj
  interval_cases j <;> simp

theorem opField_of_low_byte (w : Word) : opField w = (w.extractLsb' 0 8).extractLsb' 0 4 := by
  simp [opField, BitVec.extractLsb'_extractLsb'_of_le]

theorem z0Field_of_low_byte (w : Word) : z0Field w = (w.extractLsb' 0 8).extractLsb' 4 4 := by
  simp [z0Field, BitVec.extractLsb'_extractLsb'_of_le]

/-- An operand of at most 16 bits, shifted to bit 8, leaves Z1 to the opcode. -/
theorem z1Field_of_operand {n : Nat} (hn : n ≤ 16) (a : BitVec n) (k : Word) :
    z1Field (a.setWidth 32 <<< 8 ||| k) = z1Field k := by
  apply BitVec.eq_of_getLsbD_eq
  intro j hj
  have : a.getLsbD (24 + j - 8) = false := BitVec.getLsbD_of_ge _ _ (by omega)
  simp [z1Field, this]

/-- DECODE's operands side by side are one of 16 bits, TH:TL (30_encoding.md R81). -/
theorem encode_decode_eq (th tl : Byte) : encode (.decode th tl) = (th ++ tl).setWidth 32 <<< 8 ||| 0x9 := by
  unfold encode
  apply BitVec.eq_of_getLsbD_eq
  intro j hj
  simp only [BitVec.getLsbD_or, BitVec.getLsbD_shiftLeft, BitVec.getLsbD_setWidth, BitVec.getLsbD_append]
  have : j < 32 := hj
  interval_cases j <;> simp

end Sys2Proof

namespace Sys2Proof.Laws.WordFormat

/-- The word of a command has its opcode in OP, and 0 in the reserved fields Z0 and Z1 (30_encoding.md R80, R82). -/
def Statement (i : Instr) : Prop :=
  (opField (encode i)).toNat = i.op ∧ z0Field (encode i) = 0 ∧ z1Field (encode i) = 0

theorem delay (n : BitVec 16) : Statement (.delay n) := by
  unfold Statement encode
  rw [opField_of_low_byte, z0Field_of_low_byte, low_byte_of_operand, z1Field_of_operand (by omega)]
  exact ⟨rfl, rfl, rfl⟩

theorem writeBit (b : Bool) : Statement (.writeBit b) := by
  unfold Statement encode
  rw [opField_of_low_byte, z0Field_of_low_byte, low_byte_of_operand, z1Field_of_operand (by omega)]
  exact ⟨rfl, rfl, rfl⟩

theorem readBit : Statement .readBit := by unfold Statement; decide

theorem writeByte (d : Byte) : Statement (.writeByte d) := by
  unfold Statement encode
  rw [opField_of_low_byte, z0Field_of_low_byte, low_byte_of_operand, z1Field_of_operand (by omega)]
  exact ⟨rfl, rfl, rfl⟩

theorem readByte : Statement .readByte := by unfold Statement; decide

theorem reset : Statement .reset := by unfold Statement; decide

theorem presence : Statement .presence := by unfold Statement; decide

theorem init : Statement .init := by unfold Statement; decide

theorem decode (th tl : Byte) : Statement (.decode th tl) := by
  unfold Statement
  rw [encode_decode_eq, opField_of_low_byte, z0Field_of_low_byte, low_byte_of_operand, z1Field_of_operand (by omega)]
  exact ⟨rfl, rfl, rfl⟩

end Sys2Proof.Laws.WordFormat
end

