-- ==== Sys2Proof/Laws/Script.lean ====
section
/-! SUPPORT. Running a pseudocode segment by segment: from one suspension to the next (40_timing.md R103). A claim about
the ticks of an operation chains `Reached.segment` and ends with `Reached.finish`. -/
namespace Sys2Proof.Machine

/-- An action that neither suspends nor completes: every one but a wait of at least a tick and the detector. -/
def quiet : Action → Bool
  | .wait n => n == 0
  | .detect => false
  | .detectNext => false
  | .driveLow => true
  | .release => true
  | .sample => true
  | .setBi _ => true
  | .clearSh => true
  | .accumulate _ => true
  | .latchBit => true
  | .latchByte => true

/-- The effect of a quiet action. -/
def effect (env : Bool) : Action → State → State
  | .driveLow, s => s.driveLow
  | .release, s => s.release
  | .sample, s => s.sampleBit env
  | .setBi i, s => { s with bi := .ofNat 3 i }
  | .clearSh, s => { s with sh := 0 }
  | .accumulate i, s => s.accumulate i
  | .latchBit, s => s.latchBit
  | .latchByte, s => s.latchByte
  | .wait _, s => s
  | .detect, s => s
  | .detectNext, s => s

/-- The effect of quiet actions, in order. -/
def effects (env : Bool) (l : List Action) (s : State) : State := l.foldl (fun t a => effect env a t) s

@[simp] theorem effects_nil (env : Bool) (s : State) : effects env [] s = s := rfl

@[simp] theorem effects_cons (env : Bool) (a : Action) (l : List Action) (s : State) :
    effects env (a :: l) s = effects env l (effect env a s) := rfl

/-- Quiet actions are run by their effects. -/
theorem runActions_quiet (env : Bool) {l : List Action} (h : l.all quiet = true) (m : List Action) (s : State) :
    runActions env (l ++ m) s = runActions env m (effects env l s) := by
  induction l generalizing s with
  | nil => rfl
  | cons a l ih =>
    simp only [List.all_cons, Bool.and_eq_true] at h
    rw [List.cons_append, effects_cons, ← ih h.2]
    cases a with
    | wait n =>
      have hn : n = 0 := by simpa [quiet] using h.1
      simp [runActions, effect, hn]
    | detect => simp [quiet] at h
    | detectNext => simp [quiet] at h
    | driveLow => rfl
    | release => rfl
    | sample => rfl
    | setBi i => rfl
    | clearSh => rfl
    | accumulate i => rfl
    | latchBit => rfl
    | latchByte => rfl

/-- What quiet actions leave alone. -/
theorem effects_frame (env : Bool) (l : List Action) (s : State) :
    (effects env l s).params = s.params ∧ (effects env l s).done = s.done ∧ (effects env l s).present = s.present ∧
    (effects env l s).ovr = s.ovr ∧ (effects env l s).err = s.err ∧ (effects env l s).gate = s.gate ∧
    (effects env l s).temp = s.temp ∧ (effects env l s).time = s.time ∧ (effects env l s).fsm = s.fsm ∧
    (effects env l s).opr = s.opr ∧ (effects env l s).start = s.start ∧ (effects env l s).c = s.c ∧
    (effects env l s).ph = s.ph ∧ (effects env l s).pk = s.pk ∧ (effects env l s).div = s.div ∧
    (effects env l s).rdata = s.rdata ∧ (effects env l s).inputs = s.inputs ∧ (effects env l s).draws = s.draws := by
  induction l generalizing s with
  | nil => simp
  | cons a l ih =>
    have h := ih (effect env a s)
    cases a <;> simpa [effect] using h

/-- The pseudocode S has come to offset c, and l is what is left of it. -/
def Reached (S : List Action) (c : Nat) (l : List Action) : Prop :=
  fromOffset S c = l ∧ ∀ n, 0 < n → fromOffset S (c + n) = fromOffset l n

@[simp] theorem fromOffset_zero (l : List Action) : fromOffset l 0 = l := by
  cases l <;> simp [fromOffset]

/-- A pseudocode starts at offset 0. -/
theorem Reached.start (S : List Action) : Reached S 0 S := by
  simp [Reached]

/-- Past quiet actions and a wait of n ≥ 1 ticks. -/
theorem fromOffset_quiet_wait {l : List Action} (h : l.all quiet = true) {n : Nat} (hn : 1 ≤ n) (m : List Action)
    (k : Nat) : fromOffset (l ++ .wait n :: m) (n + k) = fromOffset m k := by
  induction l with
  | nil => rw [List.nil_append, fromOffset, if_neg (by omega), if_pos (by omega), Nat.add_sub_cancel_left]
  | cons a l ih =>
    simp only [List.all_cons, Bool.and_eq_true] at h
    have hk : n + k ≠ 0 := by omega
    rw [← ih h.2, List.cons_append]
    cases a with
    | wait w =>
      obtain rfl : w = 0 := by simpa [quiet] using h.1
      rw [fromOffset, if_neg hk, if_pos (Nat.zero_le _), Nat.sub_zero]
    | detect => simp [quiet] at h
    | detectNext => simp [quiet] at h
    | driveLow => rw [fromOffset, if_neg hk]
    | release => rw [fromOffset, if_neg hk]
    | sample => rw [fromOffset, if_neg hk]
    | setBi i => rw [fromOffset, if_neg hk]
    | clearSh => rw [fromOffset, if_neg hk]
    | accumulate i => rw [fromOffset, if_neg hk]
    | latchBit => rw [fromOffset, if_neg hk]
    | latchByte => rw [fromOffset, if_neg hk]

/-- From one suspension to the next. -/
theorem Reached.step {S l m : List Action} {c n : Nat} (h : Reached S c (l ++ .wait n :: m))
    (hl : l.all quiet = true) (hn : 1 ≤ n) : Reached S (c + n) m := by
  refine ⟨?_, fun k hk => ?_⟩
  · rw [h.2 n (by omega)]
    simpa using fromOffset_quiet_wait hl hn m 0
  · rw [Nat.add_assoc, h.2 (n + k) (by omega), fromOffset_quiet_wait hl hn]

/-- The running operation is due at the next tick, with l left of its pseudocode. -/
structure Due (s : State) (l : List Action) : Prop where
  run : s.fsm = .run
  next : s.resumeAt = s.time + 1
  reached : Reached s.oprScript s.c.toNat l

/-- The tick at which an operation is due runs what is left of its pseudocode. -/
theorem Due.tick {s : State} {l : List Action} (h : Due s l) (env : Bool) :
    s.tickStep env = runActions env l s.advanceTime := by
  rw [State.tickStep_resume h.run h.next.symm]
  show runActions env (fromOffset s.oprScript s.c.toNat) s.advanceTime = _
  rw [h.reached.1]

/-- One segment: the tick that runs quiet actions and a wait of n ticks, and fewer than n ticks after it. -/
theorem Due.within {s : State} {l m : List Action} {n : Nat} (h : Due s (l ++ .wait n :: m)) (hl : l.all quiet = true)
    (hn : 1 ≤ n) (hc : s.c.toNat + n < 2 ^ 16) (e : Bool) (es : List Bool) (hes : es.length < n) :
    s.ticks (e :: es) =
      ((effects e l s.advanceTime).suspend n).setTime (s.time + 1 + BitVec.ofNat 32 es.length) := by
  obtain ⟨-, -, -, -, -, -, -, ht, hf, -, hs, hc', -⟩ := effects_frame e l s.advanceTime
  have hx : s.ticks [e] = (effects e l s.advanceTime).suspend n := by
    rw [State.ticks_cons, State.ticks_nil, h.tick, runActions_quiet e hl]
    have : n ≠ 0 := by omega
    simp [runActions, this]
  have hy := State.ticks_append s [e] es
  rw [List.singleton_append, hx] at hy
  rw [hy, State.ticks_waiting (n := n) (by omega) es]
  · simp [ht]
  · simpa [hf] using h.run
  · have h1 : s.start + s.c.setWidth 32 = s.time + 1 := h.next
    have h2 : (s.c + BitVec.ofNat 16 n).setWidth 32 = s.c.setWidth 32 + BitVec.ofNat 32 n := by
      apply BitVec.eq_of_toNat_eq
      simp only [BitVec.toNat_setWidth, BitVec.toNat_add, BitVec.toNat_ofNat]
      omega
    simp only [State.resumeAt, State.suspend_start, State.suspend_c, State.suspend_time, hs, hc', ht,
      State.advanceTime_start, State.advanceTime_c, State.advanceTime_time]
    rw [h2, ← BitVec.add_assoc, h1]
  · exact hes

/-- At the end of a segment the operation is due again. -/
theorem Due.after {s : State} {l m : List Action} {n : Nat} (h : Due s (l ++ .wait n :: m)) (hl : l.all quiet = true)
    (hn : 1 ≤ n) (hc : s.c.toNat + n < 2 ^ 16) (e : Bool) :
    Due (((effects e l s.advanceTime).suspend n).setTime (s.time + BitVec.ofNat 32 n)) m := by
  obtain ⟨hp, -, -, -, -, -, -, ht, hf, ho, hs, hc', -⟩ := effects_frame e l s.advanceTime
  have hcn : (s.c + BitVec.ofNat 16 n).toNat = s.c.toNat + n := by
    simp only [BitVec.toNat_add, BitVec.toNat_ofNat]
    omega
  refine ⟨?_, ?_, ?_⟩
  · simpa [hf] using h.run
  · have h1 : s.start + s.c.setWidth 32 = s.time + 1 := h.next
    have h2 : (s.c + BitVec.ofNat 16 n).setWidth 32 = s.c.setWidth 32 + BitVec.ofNat 32 n := by
      apply BitVec.eq_of_toNat_eq
      simp only [BitVec.toNat_setWidth, BitVec.toNat_add, BitVec.toNat_ofNat]
      omega
    simp only [State.resumeAt, State.setTime_start, State.setTime_c, State.suspend_start, State.suspend_c, State.setTime_time, hs, hc',
      State.advanceTime_start, State.advanceTime_c]
    rw [h2, ← BitVec.add_assoc, h1]
    bv_omega
  · have hscript : (((effects e l s.advanceTime).suspend n).setTime (s.time + BitVec.ofNat 32 n)).oprScript
        = s.oprScript := by
      simp only [State.oprScript, State.setTime_opr, State.suspend_opr, State.setTime_params, State.suspend_params, ho, hp,
        State.advanceTime_opr, State.advanceTime_params]
    rw [hscript]
    simp only [State.setTime_c, State.suspend_c, hc', State.advanceTime_c, hcn]
    exact h.reached.step hl hn

/-- The tick that runs the last, quiet actions completes without an error. -/
theorem Due.finish {s : State} {l : List Action} (h : Due s l) (hl : l.all quiet = true) (env : Bool) :
    s.tickStep env = (effects env l s.advanceTime).complete .none := by
  have := runActions_quiet env hl [] s.advanceTime
  rw [List.append_nil] at this
  rw [h.tick, this]
  rfl

/-- A started operation is due at the next tick, with all of its pseudocode left. -/
theorem Due.begin (s : State) (i : Instr) : Due (s.begin i) (script s.params i) := by
  refine ⟨rfl, ?_, Reached.start _⟩
  simp [State.resumeAt]

end Sys2Proof.Machine
end

