-- ==== Sys2Proof/Machine/Assembler.lean ====
section
/-! DEFINITION. The text of an assembler line (30_encoding.md R87): a mnemonic and its numbers, decimal or `0x` hexadecimal,
spaces between the words and a comma between DECODE's two operands (DESIGN CHOICE, log 22). -/
namespace Sys2Proof

/-- The value of a digit below the base 10 or 16. -/
def digitValue (base : Nat) (c : Char) : Option Nat :=
  let n := c.toNat
  let v :=
    if 48 ≤ n ∧ n ≤ 57 then n - 48
    else if 65 ≤ n ∧ n ≤ 70 then n - 55
    else if 97 ≤ n ∧ n ≤ 102 then n - 87
    else base
  if v < base then some v else none

/-- The value of digits, most significant first, after those that make up acc. -/
def digitsFrom (base acc : Nat) : List Char → Option Nat
  | [] => some acc
  | c :: cs =>
    match digitValue base c with
    | some v => digitsFrom base (base * acc + v) cs
    | none => none

/-- "Numbers are decimal or `0x` hexadecimal" (30_encoding.md R87). -/
def number : List Char → Option Nat
  | [] => none
  | '0' :: 'x' :: c :: cs => digitsFrom 16 0 (c :: cs)
  | c :: cs => digitsFrom 10 0 (c :: cs)

/-- The words of a line, a comma being one of its own. -/
def lineWords : List Char → List (List Char)
  | [] => []
  | ' ' :: cs => [] :: lineWords cs
  | ',' :: cs => [] :: [','] :: [] :: lineWords cs
  | c :: cs =>
    match lineWords cs with
    | [] => [[c]]
    | w :: ws => (c :: w) :: ws

/-- The line that a mnemonic and its words spell. -/
def Asm.ofWords : List (List Char) → Option Asm
  | [m] =>
    if m = "READ_BIT".toList then some .readBit
    else if m = "READ_BYTE".toList then some .readByte
    else if m = "RESET".toList then some .reset
    else if m = "PRESENCE".toList then some .presence
    else if m = "INIT".toList then some .init
    else none
  | [m, a] =>
    match number a with
    | none => none
    | some n =>
      if m = "DELAY".toList then some (.delay n)
      else if m = "WRITE_BIT".toList then some (.writeBit n)
      else if m = "WRITE_BYTE".toList then some (.writeByte n)
      else none
  | [m, a, [','], b] =>
    match number a, number b with
    | some th, some tl => if m = "DECODE".toList then some (.decode th tl) else none
    | _, _ => none
  | _ => none

/-- A line of text (30_encoding.md R87). -/
def Asm.parse (cs : List Char) : Option Asm := Asm.ofWords ((lineWords cs).filter (· ≠ []))

/-- The word a line of text stands for; none is an assembly error (30_encoding.md R87). -/
def assembleLine (cs : List Char) : Option Word := (Asm.parse cs).bind Asm.assemble

end Sys2Proof
end

