-- ==== Sys2Proof/Tests/Slice0.lean ====
section
/-! SUPPORT. Tests: expected results are the vectors of 95_test_vectors.md or the examples of the rules named, worked out by
hand; and one witness for each statement that has hypotheses, showing that they can hold together. -/
namespace Sys2Proof.Tests

open Sys2Proof Sys2Proof.Machine

/-! ### Well-formedness (30_encoding.md R87, 95_test_vectors.md L2.1) -/

theorem test_delay_out_of_range_refused :
    (Asm.delay 65536).wellFormed = false ∧ (Asm.delay 65536).assemble = none ∧ (Asm.delay 65535).wellFormed = true := by
  decide

theorem test_write_bit_out_of_range_refused :
    (Asm.writeBit 2).wellFormed = false ∧ (Asm.writeBit 2).assemble = none ∧ (Asm.writeBit 1).wellFormed = true := by
  decide

theorem test_write_byte_out_of_range_refused :
    (Asm.writeByte 0x100).wellFormed = false ∧ (Asm.writeByte 0x100).assemble = none ∧
    (Asm.writeByte 0xFF).wellFormed = true := by
  decide

theorem test_decode_high_byte_out_of_range_refused :
    (Asm.decode 0x100 0).wellFormed = false ∧ (Asm.decode 0x100 0).assemble = none := by decide

theorem test_decode_low_byte_out_of_range_refused :
    (Asm.decode 0 0x100).wellFormed = false ∧ (Asm.decode 0 0x100).assemble = none ∧
    (Asm.decode 0xFF 0xFF).wellFormed = true := by
  decide

/-- The examples of 30_encoding.md R87. -/
theorem test_assembler_examples :
    (Asm.writeByte 0xCC).assemble = some 0x0000CC04 ∧ (Asm.decode 0xFF 0x9C).assemble = some 0x00FF9C09 ∧
    (Asm.delay 100).assemble = some 0x00006401 := by
  decide

/-- The examples of 30_encoding.md R87 as text, and the assembly errors of 95_test_vectors.md L2.1. -/
theorem test_assembler_text :
    assembleLine "WRITE_BYTE 0xCC".toList = some 0x0000CC04 ∧
    assembleLine "DECODE 0xFF, 0x9C".toList = some 0x00FF9C09 ∧ assembleLine "DELAY 100".toList = some 0x00006401 ∧
    assembleLine "WRITE_BYTE 0x100".toList = none ∧ assembleLine "DELAY 65536".toList = none := by
  decide

/-! ### Decoding, words written out from the patterns of 30_encoding.md R83 -/

theorem test_decode_delay :
    decode 0b00000000_1111111111111111_00000001 = .ok (.delay 65535) ∧
    decode 0b00000000_0000001111101000_00000001 = .ok (.delay 1000) := by
  decide

theorem test_decode_write_bit :
    decode 0b00000000000000000000000_0_00000010 = .ok (.writeBit false) ∧
    decode 0b00000000000000000000000_1_00000010 = .ok (.writeBit true) := by
  decide

theorem test_decode_read_bit : decode 0b00000000000000000000000000000011 = .ok .readBit := by decide

theorem test_decode_write_byte :
    decode 0b0000000000000000_11001100_00000100 = .ok (.writeByte 0xCC) ∧
    decode 0b0000000000000000_01000100_00000100 = .ok (.writeByte 0x44) := by
  decide

theorem test_decode_read_byte : decode 0b00000000000000000000000000000101 = .ok .readByte := by decide

theorem test_decode_reset : decode 0b00000000000000000000000000000110 = .ok .reset := by decide

theorem test_decode_presence : decode 0b00000000000000000000000000000111 = .ok .presence := by decide

theorem test_decode_init : decode 0b00000000000000000000000000001000 = .ok .init := by decide

theorem test_decode_decode :
    decode 0b00000000_11111111_10011100_00001001 = .ok (.decode 0xFF 0x9C) ∧
    decode 0b00000000_00000000_01100100_00001001 = .ok (.decode 0x00 0x64) := by
  decide

/-- The illegal words of 95_test_vectors.md L2.1: a reserved bit. -/
theorem test_decode_reserved_bit :
    decode 0x01000001 = .error (.reservedBit 1) ∧ decode 0x00000011 = .error (.reservedBit 1) ∧
    decode 0x00000202 = .error (.reservedBit 2) ∧ decode 0x00000103 = .error (.reservedBit 3) ∧
    decode 0x00010004 = .error (.reservedBit 4) ∧ decode 0x10000006 = .error (.reservedBit 6) ∧
    decode 0x01FF9C09 = .error (.reservedBit 9) := by
  decide

/-- The illegal words of 95_test_vectors.md L2.1: OP 0x0 and 0xA to 0xF. -/
theorem test_decode_illegal_opcode :
    decode 0x00000000 = .error (.opcode 0) ∧ decode 0x0000000A = .error (.opcode 0xA) ∧
    decode 0x0000000F = .error (.opcode 0xF) ∧ decode 0xFFFFFFFF = .error (.opcode 0xF) := by
  decide

/-- Byte 0 is the least significant (20_memory.md R64); a command is exactly four bytes (30_encoding.md R86). -/
theorem test_decode_bytes :
    decodeBytes [0x09, 0x9C, 0xFF, 0x00] = .ok (.decode 0xFF 0x9C) ∧ decodeBytes [0x05] = .error (.length 1) ∧
    decodeTableWord 32 0x00FF9C09 = some (.decode 0xFF 0x9C) ∧ decodeTableWord 32 0x01FF9C09 = none := by
  decide

/-! ### States for the tests -/

/-- The state a step goes to. -/
def nextOf : Result → Option State
  | .next t => some t
  | .fault _ => none
  | .refused _ => none

/-- Why a step is refused. -/
def refusalOf : Result → Option Refusal
  | .next _ => none
  | .fault _ => none
  | .refused r => some r

/-- Right after reset with GATE written 0: the bus data commands run. -/
def openState : State := { State.reset with gate := false }

/-- The moves to come are l. -/
def withMoves (l : List Input) (s : State) : State := { s with inputs := l }

/-- The host writes w to CMD next. -/
def issuing (w : Word) (s : State) : State := withMoves [.access (.write .cmd w)] s

/-- i was accepted at T = 0 with GATE = 0, and the next tick is the one at its offset c. -/
def dueAt (i : Instr) (c : BitVec 16) (o : LineOut) : State :=
  { openState with opr := some i, start := 1, c := c, time := c.setWidth 32, fsm := .run, out := o }

/-- The presence detector of i in phase p with count k, due at offset c. -/
def detecting (i : Instr) (c : BitVec 16) (p : Phase) (k : Nat) : State :=
  { dueAt i c .released with ph := p, pk := k }

/-- The answer to a tick with the line at level. -/
def ticked (level : Bool) (s : State) : Option State := nextOf (step (withMoves [.tick level] s))

/-- The answer to a CMD write of w. -/
def issued (w : Word) (s : State) : Option State := nextOf (step (issuing w s))

/-! ### One step of each command -/

/-- DELAY 100 accepted while TIME = 1000 (V-DL3, the example of 40_timing.md R106). -/
theorem test_delay_starts :
    issued 0x00006401 { State.reset with time := 1000 } =
      some { State.reset with time := 1000, fsm := .run, opr := some (.delay 100), start := 1001 } := by
  decide

/-- DELAY 0 completes at acceptance with STATUS = 0x00000002 (V-DL1). -/
theorem test_delay_zero_completes :
    issued 0x00000001 State.reset = some { State.reset with done := true } ∧
    (issued 0x00000001 State.reset).map State.status = some 0x00000002 := by
  decide

/-- WRITE_BIT 1: OUT is Low at ticks 1 and 2 and Released from 3 (V-WB1). -/
theorem test_write_bit_low_then_released :
    (ticked true (dueAt (.writeBit true) 0 .released)).map (fun t => (t.time, t.out, t.c)) = some (1, .low, 2) ∧
    (ticked true (dueAt (.writeBit true) 2 .low)).map (fun t => (t.time, t.out, t.c)) = some (3, .released, 62) := by
  decide

/-- WRITE_BIT 1 with the gate shut: STATUS = 0x00000042 at acceptance, the line not touched (V-WB3). -/
theorem test_write_bit_gated :
    issued 0x00000102 State.reset = some { State.reset with done := true, err := .notInit } ∧
    (issued 0x00000102 State.reset).map State.status = some 0x00000042 := by
  decide

/-- READ_BIT accepted at T = 0: the sample is at tick 8 (V-RB3, V-RB4). -/
theorem test_read_bit_samples :
    (ticked true (dueAt .readBit 7 .released)).map (fun t => (t.bit, t.history)) = some (true, [.sample 8 true]) ∧
    (ticked false (dueAt .readBit 7 .released)).map (fun t => (t.bit, t.rxdata)) = some (false, 0) := by
  decide

/-- READ_BIT completes at tick 61 with RXDATA = 0x00000001, whatever the line then is (V-RB2). -/
theorem test_read_bit_completes :
    (ticked false { dueAt .readBit 60 .released with bit := true, rxdata := 0xA5 }).map
      (fun t => (t.time, t.status, t.regRead .rxdata)) = some (61, 0x00000002, 0x00000001) := by
  decide

/-- WRITE_BYTE 0xA5: slot 1 writes a 0, Low from tick 63 to 122 (V-WY2). -/
theorem test_write_byte_second_slot :
    (ticked true (dueAt (.writeByte 0xA5) 62 .released)).map (fun t => (t.time, t.out, t.bi, t.c)) =
      some (63, .low, 1, 122) := by
  decide

/-- WRITE_BYTE 0x01: the last Low tick is 494, and it completes at tick 497 (V-WY1). -/
theorem test_write_byte_ends :
    (ticked true (dueAt (.writeByte 0x01) 494 .low)).map (fun t => (t.time, t.out, t.c)) = some (495, .released, 496) ∧
    (ticked true (dueAt (.writeByte 0x01) 496 .released)).map (fun t => (t.time, t.status)) =
      some (497, 0x00000002) := by
  decide

/-- READ_BYTE: the sample of bit 7 is at tick 442 (V-RY4 and V-RY1). -/
theorem test_read_byte_last_sample :
    (ticked false { dueAt .readByte 441 .released with sh := 0x7F }).map (fun t => (t.time, t.sh)) = some (442, 0x7F) ∧
    (ticked true { dueAt .readByte 441 .released with sh := 0x7F }).map (fun t => (t.time, t.sh)) = some (442, 0xFF) := by
  decide

/-- READ_BYTE starts with SH = 0 (42_byte_framer.md R142), and completes at tick 497 with the byte of V-RY3. -/
theorem test_read_byte_ends :
    (ticked true { dueAt .readByte 0 .released with sh := 0xFF }).map (fun t => (t.sh, t.out)) = some (0, .low) ∧
    (ticked true { dueAt .readByte 496 .released with sh := 0x64 }).map (fun t => (t.time, t.regRead .rxdata)) =
      some (497, 0x00000064) := by
  decide

/-- RESET: Low at ticks 1 to 750, Released from 751 (V-RS1). -/
theorem test_reset_pulse :
    (ticked true (dueAt .reset 0 .released)).map (fun t => (t.time, t.out, t.c)) = some (1, .low, 750) ∧
    (ticked true (dueAt .reset 750 .low)).map (fun t => (t.time, t.out, t.c)) = some (751, .released, 765) := by
  decide

/-- RESET clears PRESENT at acceptance, so STATUS reads 0x00000001 while it runs (V-RS3). -/
theorem test_reset_clears_present :
    (issued 0x00000006 { State.reset with present := true }).map State.status = some 0x00000001 := by
  decide

/-- PRESENCE: a 1 after one low sample succeeds at tick 2 (V-PR1); the 240th low sample in a row (V-PR9) fails unread. -/
theorem test_presence_low_phase :
    (ticked true (detecting .presence 1 .b 1)).map (fun t => (t.time, t.status)) = some (2, 0x00000006) ∧
    (ticked true (detecting .presence 240 .b 240)).map (fun t => (t.time, t.status, t.history)) =
      some (241, 0x00000022, []) := by
  decide

/-- PRESENCE: no low sample, NOPRES_HIGH at tick 201 (V-PR4); a first low sample goes to phase B with PK = 1 (43_init.md
R166). -/
theorem test_presence_high_phase :
    (ticked true (detecting .presence 200 .a 200)).map (fun t => (t.time, t.status)) = some (201, 0x00000012) ∧
    (ticked false (detecting .presence 30 .a 30)).map (fun t => (t.ph, t.pk, t.c)) = some (.b, 1, 31) := by
  decide

/-- INIT: presence offset 0 is tick 766 (95_test_vectors.md L2.9), with PH and PK set anew. -/
theorem test_init_first_presence_sample :
    (ticked true (detecting .init 765 .b 7)).map (fun t => (t.time, t.ph, t.pk, t.c, t.history)) =
      some (766, .a, 1, 766, [.sample 766 true]) := by
  decide

/-- INIT on a line without a device: NOPRES_HIGH at tick 966 (V-IN1); stuck low, NOPRES_LOW at tick 1006 (V-IN4). -/
theorem test_init_fails :
    (ticked true (detecting .init 965 .a 200)).map (fun t => (t.time, t.status)) = some (966, 0x00000012) ∧
    (ticked false (detecting .init 1005 .b 240)).map (fun t => (t.time, t.status)) = some (1006, 0x00000022) := by
  decide

/-- DECODE (95_test_vectors.md L1 and L2.10): both sides of the sign pattern, and zero. -/
theorem test_decode_values :
    decodeTemp 0x00 0x64 = 0x40C80000 ∧ decodeTemp 0x07 0xD0 = 0x42FA0000 ∧ decodeTemp 0xFF 0x9C = 0xC0C80000 ∧
    decodeTemp 0xFF 0xF8 = 0xBF000000 ∧ decodeTemp 0x00 0x00 = 0x00000000 ∧ decodeTemp 0x00 0x01 = 0x3D800000 ∧
    decodeTemp 0xFF 0xFF = 0xBD800000 ∧ decodeTemp 0xF8 0x00 = 0xC3000000 ∧ decodeTemp 0x07 0xFF = 0x42FFE000 ∧
    decodeTemp 0x08 0x00 = 0x43000000 ∧ decodeTemp 0x80 0x00 = 0x45000000 ∧ decodeTemp 0xF7 0xFF = 0x4577FF00 := by
  decide

/-- DECODE completes at acceptance (L2.10); while busy it is dropped with OVR = 1 and TEMP unchanged (V-DC3). -/
theorem test_decode_completes_or_drops :
    issued 0x00FF9C09 State.reset = some { State.reset with done := true, temp := 0xC0C80000 } ∧
    (issued 0x00FF9C09 (dueAt .readBit 2 .low)).map (fun t => (t.temp, t.status)) = some (0, 0x00000009) := by
  decide

/-! ### The window, block reset and TIME -/

/-- V-AC1 and V-AC2: an illegal word, and illegal before the gate. -/
theorem test_illegal_word :
    issued 0x00000000 State.reset = some { State.reset with done := true, err := .illegal } ∧
    (issued 0x00000103 State.reset).map State.status = some 0x00000032 := by
  decide

/-- V-AC7 and V-AC8: writes to read-only and reserved offsets are ignored, CTRL keeps bit 0 only. -/
theorem test_register_writes :
    nextOf (step (withMoves [.access (.write .status 0xFFFFFFFF)] State.reset)) = some State.reset ∧
    nextOf (step (withMoves [.access (.write .reserved18 1)] State.reset)) = some State.reset ∧
    (nextOf (step (withMoves [.access (.write .ctrl 0xFFFFFFFF)] State.reset))).map (·.regRead .ctrl) =
      some 0x00000001 := by
  decide

/-- V-RT1 and V-RT2: block reset during a WRITE_BIT 0, with a command written in the same cycle. -/
theorem test_block_reset :
    nextOf (step (withMoves [.rst (some (.write .cmd 0x00000006))] (dueAt (.writeBit false) 30 .low))) =
      some State.reset := by
  decide

/-- V-RT3: TIME wraps, and a DELAY accepted at TIME 0xFFFFFFFF has S = 0. -/
theorem test_time_wraps :
    (ticked true { State.reset with time := 0xFFFFFFFF }).map (·.time) = some 0 ∧
    (issued 0x00000A01 { State.reset with time := 0xFFFFFFFF }).map (·.start) = some 0 := by
  decide

/-- The Low runs of program P5's first slots, Low at ticks 1-2 and 63-122 (95_test_vectors.md P5), and their bits. -/
theorem test_loopback_reads_low_times :
    lowRuns (edgesOf [.out 1 .low, .out 3 .released, .out 63 .low, .out 123 .released]) = [2, 60] ∧
    loopbackAnswer Config.Params.default [.out 123 .released, .out 63 .low, .out 3 .released, .out 1 .low] 0 = true ∧
    loopbackAnswer Config.Params.default [.out 123 .released, .out 63 .low, .out 3 .released, .out 1 .low] 1 = false := by
  decide

/-! ### Witnesses: the hypotheses of each statement hold together, one of each clause -/

theorem witness_EncodeDecodeRoundTrip : decode 0x00FF9C09 = .ok (.decode 0xFF 0x9C) := by decide

theorem witness_WordsSpellTableRows :
    rowDecode ∈ opcodeTable ∧ Word.spells 0x00FF9C09 rowDecode = true := by decide

theorem witness_OperandsAreFieldsOfTheWord :
    decode 0x00FFFF01 = .ok (.delay 0xFFFF) ∧ decode 0x00000102 = .ok (.writeBit true) ∧
    decode 0x0000FF04 = .ok (.writeByte 0xFF) ∧ decode 0x00FF0009 = .ok (.decode 0xFF 0x00) := by
  decide

theorem witness_AssemblerNeverTruncates :
    (65535 ≤ 65535 ∧ 65535 < 65536) ∧ (1 ≤ 1 ∧ 1 < 2) ∧ (255 ≤ 0xFF ∧ 0xFF < 256) ∧
    (Asm.decode 0xFF 0xFF).assemble = some 0x00FFFF09 := by
  decide

theorem witness_WindowHasEightRegisters :
    Access.atAddress (Config.base + 0x1C) 4 none = some ⟨0x1C, 4, none⟩ ∧
    Access.admissible ⟨0x1C, 4, none⟩ = true := by
  refine ⟨?_, by decide⟩
  rw [Access.atAddress, if_pos (Nat.le_add_right _ _), Nat.add_sub_cancel_left]

theorem witness_AccessOutsideInterfaceIsRefused :
    State.reset.params.Legal ∧
    ((Access.mk 0 2 none).bytes ≠ 4 ∧
      (withMoves [.access ⟨0, 2, none⟩] State.reset).inputs = [.access ⟨0, 2, none⟩]) ∧
    ((Access.mk 2 4 none).off % 4 ≠ 0 ∧
      (withMoves [.access ⟨2, 4, none⟩] State.reset).inputs = [.access ⟨2, 4, none⟩]) := by
  decide

theorem witness_AccessBeyondTheWindowIsRefused :
    State.reset.params.Legal ∧ 32 ≤ (Access.mk 32 4 none).off ∧
    refusalOf (step (withMoves [.access ⟨32, 4, none⟩] State.reset)) = some .accessOutsideInterface := by
  decide

theorem witness_ReservedBitsReadZero :
    8 ≤ 8 ∧ 1 ≤ 1 ∧ State.reset.params.Legal ∧
    (withMoves [.access (.write .reserved18 1)] State.reset).inputs = [.access (.write .reserved18 1)] ∧
    (withMoves [.access (.write .ctrl 2)] State.reset).inputs = [.access (.write .ctrl 2)] := by
  decide

theorem witness_ReadsChangeNothing :
    State.reset.params.Legal ∧
    (withMoves [.access (.read .status)] State.reset).inputs = [.access (.read .status)] := by
  decide

theorem witness_WritesOutsideCmd :
    State.reset.params.Legal ∧
    (withMoves [.access (.write .ctrl 0)] State.reset).inputs = [.access (.write .ctrl 0)] ∧
    Reg.temp ≠ .cmd ∧ Reg.temp ≠ .ctrl ∧
    (withMoves [.access (.write .temp 1)] State.reset).inputs = [.access (.write .temp 1)] := by
  decide

theorem witness_IllegalParametersAreRefused :
    ¬({ Config.Params.default with tRstLow := 479 } : Config.Params).Legal ∧
    (refusalOf (step { State.reset with params := { Config.Params.default with tRstLow := 479 } }) =
      some .illegalParameters) ∧
    refusalOf (step (withMoves [.access (.read .cmd)] State.reset)) = none := by
  decide

theorem witness_TickEveryTickDivCycles :
    State.reset.div + (List.replicate (State.reset.params.tickDiv - 1) true).length + 1 = State.reset.params.tickDiv := by
  have := State.reset.params.tickDiv_pos
  rw [List.length_replicate, show State.reset.div = 0 from rfl]
  omega

/-- An idle state of the invariant that is not the reset state. -/
def idleAfterDecode : State := { State.reset with done := true, temp := 0x40C80000, time := 7 }

theorem idleAfterDecode_inv : idleAfterDecode.Inv where
  legal := by decide
  idle_released := by decide
  run_flags := by decide
  err_done := by decide
  positioned := nofun
  line := by decide
  ahead := by decide
  present_cleared := nofun
  pk_bound := by decide
  div_bound := Config.Params.tickDiv_pos _

/-- A DELAY 5 that has just been accepted. -/
def runningDelay : State := dueAt (.delay 5) 0 .released

theorem runningDelay_inv : runningDelay.Inv where
  legal := by decide
  idle_released := by decide
  run_flags := by decide
  err_done := by decide
  positioned := fun _ => .inl rfl
  line := by decide
  ahead := by decide
  present_cleared := fun _ _ _ _ => rfl
  pk_bound := by decide
  div_bound := Config.Params.tickDiv_pos _

theorem witness_IdleChangesOnlyTimeAndDiv : idleAfterDecode.Inv ∧ idleAfterDecode.fsm = .idle :=
  ⟨idleAfterDecode_inv, rfl⟩

theorem witness_TimeCountsTicks :
    State.reset.params.Legal ∧ (withMoves [.tick true] State.reset).inputs = [.tick true] ∧
    ∃ t, step (issuing 0x00000006 State.reset) = .next t :=
  ⟨by decide, rfl, _, rfl⟩

theorem witness_StepTakesTheNextMove :
    State.reset.params.Legal ∧ (withMoves [.tick true] State.reset).inputs = [.tick true] ∧
    (withMoves [.clk true] State.reset).inputs = [.clk true] ∧ State.reset.inputs = [] ∧ State.reset.div = 0 ∧
    (withMoves [.tick true, .tick false, .rst none] State.reset).inputs = [true, false].map .tick ++ [.rst none] := by
  decide

theorem witness_BlockResetValues :
    State.reset.params.Legal ∧ (withMoves [.rst none] runningDelay).inputs = [.rst none] ∧
    (withMoves [.rst (some (.read .time))] runningDelay).inputs = [.rst (some (.read .time))] ∧
    (Access.read .time).admissible = true := by
  decide

theorem witness_ResetCycleHasPriority :
    runningDelay.params.Legal ∧ (withMoves [.rst none] runningDelay).inputs = [.rst none] ∧
    (withMoves [.rst (some (.write .cmd 6))] runningDelay).inputs = [.rst (some (.write .cmd 6))] ∧
    (Access.write .cmd 6).admissible = true := by
  decide

theorem witness_StepRunsTheDecodedCommand :
    State.reset.params.Legal ∧ (issuing 0x00000006 State.reset).inputs = [.access (.write .cmd 0x00000006)] ∧
    decode 0x00000006 = .ok .reset ∧ decodeTableWord 32 6 = some .reset := by
  decide

theorem witness_IllegalWordCompletesAtOnce :
    State.reset.params.Legal ∧ (issuing 0x00000000 State.reset).inputs = [.access (.write .cmd 0x00000000)] ∧
    decode 0x00000000 = .error (.opcode 0) ∧ State.reset.fsm = .idle := by
  decide

theorem witness_BusyDropsEveryCommand :
    runningDelay.fsm = .run ∧ runningDelay.params.Legal ∧
    (issuing 0x00000003 runningDelay).inputs = [.access (.write .cmd 0x00000003)] ∧
    State.reset.params.Legal ∧ State.reset.fsm = .idle ∧
    (issuing 0x00000003 State.reset).inputs = [.access (.write .cmd 0x00000003)] := by
  decide

theorem witness_ShutGateRefusesBusData :
    (isBusData .readByte = true ∧ State.reset.fsm = .idle ∧ State.reset.gate = true ∧ State.reset.present = false) ∧
    isBusData .init = false ∧ openState.fsm = .idle ∧ openState.gate = false := by
  decide

theorem witness_PriorityOfTheChecks :
    State.reset.params.Legal ∧ (runningDelay.params.Legal ∧ runningDelay.fsm = .run) ∧
    decode 0x00000103 = .error (.reservedBit 3) ∧
    (decode 0x00000003 = .ok .readBit ∧ isBusData .readBit = true ∧ State.reset.gate = true ∧
      State.reset.present = false) ∧
    (openState.fsm = .idle ∧ openState.gate = false) := by
  decide

theorem witness_PriorityOfTheChecks_running :
    (dueAt .readBit 60 .released).fsm = .run ∧ ((dueAt .readBit 60 .released).tickStep true).fsm = .idle ∧
    (dueAt .readBit 60 .released).opr ≠ some .presence ∧ (dueAt .readBit 60 .released).opr ≠ some .init := by
  decide

theorem witness_NoErrorIsFatal :
    State.reset.params.Legal ∧ (Access.write .cmd 0).admissible = true ∧
    (issuing 0 { State.reset with done := true, err := .notInit }).inputs = [.access (.write .cmd 0)] ∧
    ({ State.reset with done := true, err := .notInit } : State).fsm = .idle := by
  decide

theorem witness_BusDataCommandsStart :
    isBusData .readByte = true ∧ (openState.fsm = .idle ∧ openState.gate = false) ∧
    ({ State.reset with present := true } : State).fsm = .idle ∧
    ({ State.reset with present := true } : State).present = true := by
  decide

theorem witness_InitializationCommandsStart :
    clearsPresent .reset = true ∧ clearsPresent .presence = true ∧ clearsPresent .init = true ∧
    State.reset.fsm = .idle := by
  decide

theorem witness_DelayStartsOrCompletes :
    State.reset.fsm = .idle ∧ (0 : BitVec 16) = 0 ∧ (1 : BitVec 16) ≠ 0 := by decide

theorem witness_DecodeCompletesAtOnce : State.reset.fsm = .idle := by decide

theorem witness_AcceptanceFrame :
    (∃ t, exec .readBit openState = .next t) ∧ (∃ t, exec (.decode 0 0x64) State.reset = .next t) ∧
    clearsPresent .readBit = false ∧ ∀ th tl, Instr.readBit ≠ .decode th tl :=
  ⟨⟨_, rfl⟩, ⟨_, rfl⟩, rfl, nofun⟩

theorem witness_DelayRunsItsTicks :
    State.reset.fsm = .idle ∧ State.reset.out = .released ∧ (1 : BitVec 16) ≠ 0 ∧
    [true].length ≤ (1 : BitVec 16).toNat ∧ [true, false].length = (1 : BitVec 16).toNat + 1 := by
  decide

/-- The hypotheses on the state of the waveform statements. -/
theorem openState_ready :
    openState.params.Legal ∧ openState.fsm = .idle ∧ openState.out = .released ∧
    (openState.gate = false ∨ openState.present = true) := by
  decide

/-- WRITE_BIT 1 with the defaults: (low, high) = (2, 60). -/
theorem witness_WriteBitWaveform :
    (openState.params.tW1Low, openState.params.tW1High) = (2, 60) ∧
    (List.replicate 2 true).length = 1 + 1 ∧ (List.replicate 3 true).length = 2 + 1 ∧
    (List.replicate 62 true).length = 61 + 1 ∧ (List.replicate 63 true).length = 2 + 60 + 1 := by
  decide

theorem witness_ReadBitSamplesOnce :
    openState.params.tRLow = 2 ∧ openState.params.tRLow + openState.params.tRSample + openState.params.tRPad = 60 ∧
    (List.replicate 2 true).length = 1 + 1 ∧ (List.replicate 3 true).length = 2 + 1 ∧
    (List.replicate 60 true).length ≤ 60 ∧ (List.replicate 61 true).length = 60 + 1 ∧
    (List.replicate 61 true)[openState.params.tRLow + openState.params.tRSample]? = some true := by
  decide

/-- The last tick of slot 7 of WRITE_BYTE 0x01, a write-0 slot. -/
theorem witness_WriteByteWaveform :
    writeSlotStart openState.params 0x01 7 = 434 ∧ (0x01 : Byte).getLsbD 7 = false ∧
    (openState.params.tW0Low, openState.params.tW0High) = (60, 2) ∧ 61 < 60 + 2 + openState.params.tWbGap ∧
    (List.replicate 496 true).length = writeSlotStart openState.params 0x01 7 + 61 + 1 ∧
    (List.replicate 497 true).length = writeSlotStart openState.params 0x01 8 + 1 := by
  simp only [List.length_replicate]
  decide

theorem witness_ReadByteAssemblesSamples :
    readTurnLength openState.params = 62 ∧ 61 < readTurnLength openState.params ∧
    (List.replicate 496 true).length = 7 * readTurnLength openState.params + 61 + 1 ∧
    (List.replicate 497 true).length = 8 * readTurnLength openState.params + 1 ∧
    (List.replicate 497 true)[readSampleOffset openState.params 7]? = some true := by
  simp only [List.length_replicate, List.getElem?_replicate]
  decide

theorem witness_ResetPulseWaveform :
    (List.replicate 750 true).length = 749 + 1 ∧ 749 < openState.params.tRstLow ∧
    (List.replicate 751 true).length = 750 + 1 ∧ openState.params.tRstLow ≤ 750 ∧
    764 < openState.params.tRstLow + openState.params.tRstWait ∧
    (List.replicate 766 true).length = openState.params.tRstLow + openState.params.tRstWait + 1 := by
  simp only [List.length_replicate]
  decide

/-- A legal instance with short presence bounds. -/
def shortDetector : State :=
  { State.reset with params := { Config.Params.default with nPresHigh := 1, nPresLow := 2 } }

/-- At the smallest legal bounds: no 0 among 1 sample; a run of 1 = N_PRES_LOW - 1 zeros; a run of 2 = N_PRES_LOW. -/
theorem witness_PresenceLaw :
    (shortDetector.params.Legal ∧ shortDetector.fsm = .idle ∧ shortDetector.out = .released) ∧
    [true, false] = List.replicate shortDetector.params.nPresHigh true ++ [false] ∧
    (0 < shortDetector.params.nPresHigh ∧ 1 ≤ 1 ∧ 1 + 1 ≤ shortDetector.params.nPresLow ∧
      [false, true] = List.replicate 0 true ++ List.replicate 1 false ++ [true]) ∧
    [false, false, true] = List.replicate 0 true ++ List.replicate shortDetector.params.nPresLow false ++ [true] := by
  decide

theorem witness_InitLaw :
    (shortDetector.params.Legal ∧ shortDetector.fsm = .idle ∧ shortDetector.out = .released) ∧
    (List.replicate 765 true).length = 764 + 1 ∧
    764 < shortDetector.params.tRstLow + shortDetector.params.tRstWait ∧
    (List.replicate 765 true).length = shortDetector.params.tRstLow + shortDetector.params.tRstWait ∧
    [true, false] = List.replicate shortDetector.params.nPresHigh true ++ [false] := by
  simp only [List.length_replicate]
  decide

/-- Whatever the WRITE_BYTE has put on the wire, there are levels that answer as the loopback line does. -/
theorem loopback_levels (sent : List Event) :
    ∃ rs : List Bool, rs.length = 8 * readTurnLength openState.params + 1 ∧
      ∀ k, k < 8 → rs[readSampleOffset openState.params k]? = some (loopbackAnswer openState.params sent k) := by
  refine ⟨(List.range 497).map fun o => loopbackAnswer openState.params sent (o / 62),
    by rw [List.length_map, List.length_range]; decide, fun k hk => ?_⟩
  have h : readSampleOffset openState.params k = k * 62 + 7 := rfl
  rw [h, List.getElem?_map, List.getElem?_range (by omega)]
  simp only [Option.map_some]
  congr 2
  omega

/-- WRITE_BYTE 0xA5 and a loopback line, with the defaults. -/
theorem witness_LoopbackReproducesTheByte :
    openState.params.tW1Low ≠ openState.params.tW0Low ∧
    (List.replicate 497 true).length = writeSlotStart openState.params 0xA5 8 + 1 ∧
    ∃ t, exec (.writeByte 0xA5) openState = .next t ∧
    ∃ rs : List Bool, rs.length = 8 * readTurnLength openState.params + 1 ∧
      ∀ k, k < 8 → rs[readSampleOffset openState.params k]? =
        some (loopbackAnswer openState.params (t.ticks (List.replicate 497 true)).history k) :=
  ⟨by decide, by rw [List.length_replicate]; decide, _, rfl, loopback_levels _⟩

theorem witness_StepKeepsInvariant :
    (withMoves [.tick true] runningDelay).Inv ∧ ∃ t, step (withMoves [.tick true] runningDelay) = .next t :=
  ⟨⟨runningDelay_inv.legal, runningDelay_inv.idle_released, runningDelay_inv.run_flags, runningDelay_inv.err_done,
    runningDelay_inv.positioned, runningDelay_inv.line, runningDelay_inv.ahead, runningDelay_inv.present_cleared,
    runningDelay_inv.pk_bound, runningDelay_inv.div_bound⟩, _, rfl⟩

theorem witness_EveryOperationCompletes :
    runningDelay.Inv ∧ runningDelay.fsm = .run ∧ (List.replicate 65536 true).length = 65536 :=
  ⟨runningDelay_inv, rfl, List.length_replicate⟩

theorem witness_TempWrittenOnlyByDecode :
    (∃ t, step (issuing 0x00006409 State.reset) = .next t ∧ t.temp ≠ State.reset.temp) ∧
    ∃ t, step (withMoves [.rst none] idleAfterDecode) = .next t ∧ t.temp ≠ idleAfterDecode.temp :=
  ⟨⟨_, rfl, by decide⟩, _, rfl, by decide⟩

theorem witness_RxdataWrittenOnlyByReads :
    ∃ t, step (withMoves [.tick false] { dueAt .readBit 60 .released with bit := true }) = .next t ∧
      t.rxdata ≠ (dueAt .readBit 60 .released).rxdata :=
  ⟨_, rfl, by decide⟩

theorem witness_PresentLife :
    (∃ t, step (withMoves [.tick true] (detecting .presence 1 .b 1)) = .next t ∧
      t.present ≠ (detecting .presence 1 .b 1).present) ∧
    ∃ t, step (issuing 0x00000006 { State.reset with present := true }) = .next t ∧ t.present ≠ true :=
  ⟨⟨_, rfl, by decide⟩, _, rfl, by decide⟩

theorem witness_OverrunLife :
    (∃ t, step (issuing 0x00000003 runningDelay) = .next t ∧ t.ovr ≠ runningDelay.ovr) ∧
    ∃ t, step (issuing 0x00000003 { State.reset with ovr := true }) = .next t ∧ t.ovr ≠ true :=
  ⟨⟨_, rfl, by decide⟩, _, rfl, by decide⟩

theorem witness_GateWrittenOnlyByCtrl :
    (∃ t, step (withMoves [.access (.write .ctrl 0)] State.reset) = .next t ∧ t.gate ≠ State.reset.gate) ∧
    ∃ t, step (withMoves [.rst none] openState) = .next t ∧ t.gate ≠ openState.gate :=
  ⟨⟨_, rfl, by decide⟩, _, rfl, by decide⟩

theorem witness_CompletionIsOneStep :
    (∃ t, step (withMoves [.tick true] (dueAt (.writeBit true) 62 .released)) = .next t ∧ t.fsm = .idle) ∧
    (∃ t, step (withMoves [.tick true] (detecting .presence 200 .a 200)) = .next t ∧ t.fsm = .idle) ∧
    (dueAt (.writeBit true) 62 .released).fsm = .run ∧ (detecting .presence 200 .a 200).fsm = .run ∧
    ∀ a rest, [Input.tick true] ≠ .rst a :: rest :=
  ⟨⟨_, rfl, by decide⟩, ⟨_, rfl, by decide⟩, rfl, rfl, nofun⟩

theorem witness_NoBusDataWithoutPresence :
    ∃ t, step (issuing 0x00000003 openState) = .next t ∧ openState.fsm = .idle ∧ t.fsm = .run ∧
      t.opr = some .readBit ∧ isBusData .readBit = true :=
  ⟨_, rfl, rfl, rfl, rfl, rfl⟩

theorem witness_HostCannotDisturbARunningOperation :
    runningDelay.fsm = .run ∧ (Access.write .ctrl 1).admissible = true := by decide

theorem witness_OneSampleATick : runningDelay.Inv := runningDelay_inv

/-- On both sides of the sign pattern, and at zero. -/
theorem witness_DecodedTemperatureIsExact :
    (0xF7FF = (0xF7 : Byte).toNat * 256 + (0xFF : Byte).toNat ∧ ¬0xF800 ≤ 0xF7FF ∧ 0 < 0xF7FF) ∧
    (0xF800 = (0xF8 : Byte).toNat * 256 + (0x00 : Byte).toNat ∧ 0xF800 ≤ 0xF800 ∧ 0x800 = 65536 - 0xF800) ∧
    0 = (0 : Byte).toNat * 256 + (0 : Byte).toNat := by
  decide

theorem witness_DecodeAgreesWithTwosComplement :
    (0x7FFF : Raw) = (0x7F : Byte) ++ (0xFF : Byte) ∧ (0x7FFF : Raw).toNat < 0x8000 ∧
    (0xF800 : Raw) = (0xF8 : Byte) ++ (0x00 : Byte) ∧ 0xF800 ≤ (0xF800 : Raw).toNat ∧
    (0xF7FF : Raw) = (0xF7 : Byte) ++ (0xFF : Byte) ∧ 0x8000 ≤ (0xF7FF : Raw).toNat ∧ (0xF7FF : Raw).toNat < 0xF800 := by
  decide

theorem witness_MagnitudeIsSixteenBit : 0xF800 ≤ (0xF800 : Raw).toNat := by decide

/-- A host right after the INIT of START_CONVERSION, with what it read in st. -/
def hostAfterInit (st : Word) : HostRun :=
  { owc := State.reset, prog := [.stopIfError .st, .write .cmd 0x0000CC04], vars := ⟨st, 0, 0, 0⟩, noDevice := false }

theorem witness_FailedPresenceEndsTheTransaction :
    (hostAfterInit 0x12).prog = [.stopIfError .st, .write .cmd 0x0000CC04] ∧
    ((hostAfterInit 0x12).vars.get .st).toNat / 16 % 16 ≠ 0 ∧
    ((hostAfterInit 0x06).vars.get .st).toNat / 16 % 16 = 0 := by
  decide

/-- START_CONVERSION with T_SETTLE = 10 (95_test_vectors.md P1): the command words that it writes. -/
theorem test_start_conversion_words :
    (startConversion ⟨10, 1000, 5⟩).filterMap (fun o => match o with | .write .cmd v => some v | _ => none) =
      [0x00000008, 0x00000A01, 0x0000CC04, 0x00004404] := by
  decide

/-- READ_TEMPERATURE_RAW with T_CONV = 1000 and T_RB_SETTLE = 5 (95_test_vectors.md P2): the command words. -/
theorem test_read_temperature_words :
    (readTemperatureRaw ⟨10, 1000, 5⟩).filterMap (fun o => match o with | .write .cmd v => some v | _ => none) =
      [0x0003E801, 0x00000008, 0x0000CC04, 0x0000BE04, 0x00000005, 0x00000501, 0x00000005] := by
  decide

/-- WAIT_US 70000 is DELAY 65535 and DELAY 4465 (95_test_vectors.md P6). -/
theorem test_wait_us_words :
    (hostWaitUs 70000).filterMap (fun o => match o with | .write .cmd v => some v | _ => none) =
      [0x00FFFF01, 0x00117101] := by
  decide

end Sys2Proof.Tests
end

namespace Sys2Proof.Machine

/-! ### Acceptance (40_timing.md R102)

Every write to CMD is one `issue`, whose body depends on the word alone. -/

/-- What an accepted command does to the state whose flags are cleared. -/
def State.accept (i : Instr) (a : State) : State :=
  match i with
  | .delay n => if n = 0 then a.finish .none else a.begin (.delay n)
  | .writeBit b => a.gated (·.begin (.writeBit b))
  | .readBit => a.gated (·.begin .readBit)
  | .writeByte d => a.gated (·.begin (.writeByte d))
  | .readByte => a.gated (·.begin .readByte)
  | .reset => a.clearPresent.begin .reset
  | .presence => a.clearPresent.begin .presence
  | .init => a.clearPresent.begin .init
  | .decode th tl => { a with temp := decodeTemp th tl }.finish .none

/-- What an accepted word does to the state whose flags are cleared; an illegal one is accepted too
(60_exceptions.md R237). -/
def State.acceptWord (w : Word) (a : State) : State :=
  match decode w with
  | .ok i => a.accept i
  | .error _ => a.finish .illegal

theorem exec_eq_issue (i : Instr) (s : State) : exec i s = .next (s.issue (·.accept i)) := by
  cases i <;> rfl

theorem State.acceptWord_ok {w : Word} {i : Instr} (h : decode w = .ok i) (a : State) :
    a.acceptWord w = a.accept i := by
  simp [State.acceptWord, h]

theorem State.acceptWord_error {w : Word} {e : Illegal} (h : decode w = .error e) (a : State) :
    a.acceptWord w = a.finish .illegal := by
  simp [State.acceptWord, h]

theorem command_eq_issue (w : Word) (s : State) : command w s = .next (s.issue (·.acceptWord w)) := by
  cases h : decode w with
  | ok i => simp only [command_ok h, exec_eq_issue, State.acceptWord_ok h]
  | error e => simp only [command_error h, State.issueIllegal, State.acceptWord_error h]

/-- An accepted bus data command starts or is refused by the gate. -/
theorem State.gated_begin_cases (i : Instr) (a : State) :
    a.gated (·.begin i) = a.finish .notInit ∨ a.gated (·.begin i) = a.begin i := by
  cases h : a.gateOpen with
  | false => exact .inl (State.gated_shut h _)
  | true => exact .inr (State.gated_open h _)

/-- An accepted command completes at once, starts, clears PRESENT and starts, or is DECODE. -/
theorem State.accept_cases (i : Instr) (a : State) :
    (∃ e, a.accept i = a.finish e) ∨ a.accept i = a.begin i ∨ a.accept i = a.clearPresent.begin i ∨
    ∃ th tl, i = .decode th tl ∧ a.accept i = { a with temp := decodeTemp th tl }.finish .none := by
  have gated (j : Instr) (h : a.accept j = a.gated (·.begin j)) :
      (∃ e, a.accept j = a.finish e) ∨ a.accept j = a.begin j := by
    rw [h]
    exact (State.gated_begin_cases j a).imp (fun hf => ⟨_, hf⟩) id
  cases i with
  | delay n =>
    by_cases hn : n = 0
    · exact .inl ⟨.none, if_pos hn⟩
    · exact .inr (.inl (if_neg hn))
  | writeBit b => exact (gated _ rfl).imp id .inl
  | readBit => exact (gated _ rfl).imp id .inl
  | writeByte d => exact (gated _ rfl).imp id .inl
  | readByte => exact (gated _ rfl).imp id .inl
  | reset => exact .inr (.inr (.inl rfl))
  | presence => exact .inr (.inr (.inl rfl))
  | init => exact .inr (.inr (.inl rfl))
  | decode th tl => exact .inr (.inr (.inr ⟨th, tl, rfl, rfl⟩))

@[simp] theorem State.accept_ovr (i : Instr) (a : State) : (a.accept i).ovr = a.ovr := by
  obtain ⟨e, h⟩ | h | h | ⟨th, tl, -, h⟩ := a.accept_cases i <;> simp [h]

@[simp] theorem State.accept_time (i : Instr) (a : State) : (a.accept i).time = a.time := by
  obtain ⟨e, h⟩ | h | h | ⟨th, tl, -, h⟩ := a.accept_cases i <;> simp [h]

@[simp] theorem State.acceptWord_ovr (w : Word) (a : State) : (a.acceptWord w).ovr = a.ovr := by
  cases h : decode w with
  | ok i => simp [State.acceptWord_ok h]
  | error e => simp [State.acceptWord_error h]

@[simp] theorem State.acceptWord_time (w : Word) (a : State) : (a.acceptWord w).time = a.time := by
  cases h : decode w with
  | ok i => simp [State.acceptWord_ok h]
  | error e => simp [State.acceptWord_error h]

/-- A write to CMD leaves OVR = 1 exactly where it is dropped (10_state.md R26). -/
@[simp] theorem State.issue_acceptWord_ovr (w : Word) (s : State) : (s.issue (·.acceptWord w)).ovr = s.busy := by
  cases h : s.busy with
  | false => simp [State.issue_idle h]
  | true => simp [State.issue_busy h]

@[simp] theorem State.issue_acceptWord_time (w : Word) (s : State) : (s.issue (·.acceptWord w)).time = s.time := by
  cases h : s.busy with
  | false => simp [State.issue_idle h]
  | true => simp [State.issue_busy h]

/-! ### Ticks -/

@[simp] theorem State.resume_time (env : Bool) (s : State) : (s.resume env).time = s.time := by
  obtain ⟨-, -, -, h, -⟩ := runActions_frame env (fromOffset s.oprScript s.c.toNat) s
  exact h

@[simp] theorem State.resume_ovr (env : Bool) (s : State) : (s.resume env).ovr = s.ovr := by
  obtain ⟨-, -, -, -, h, -⟩ := runActions_frame env (fromOffset s.oprScript s.c.toNat) s
  exact h

/-- A tick step advances TIME, and may then resume the operation (40_timing.md R103). -/
theorem State.tickStep_cases (env : Bool) (s : State) :
    s.tickStep env = s.advanceTime ∨ s.tickStep env = s.advanceTime.resume env := by
  by_cases h : s.fsm = .run ∧ s.time + 1 = s.resumeAt
  · exact .inr (State.tickStep_resume h.1 h.2 env)
  · exact .inl (State.tickStep_waiting h env)

@[simp] theorem State.tickStep_time (env : Bool) (s : State) : (s.tickStep env).time = s.time + 1 := by
  obtain h | h := s.tickStep_cases env <;> simp [h, State.advanceTime]

@[simp] theorem State.tickStep_ovr (env : Bool) (s : State) : (s.tickStep env).ovr = s.ovr := by
  obtain h | h := s.tickStep_cases env <;> simp [h, State.advanceTime]

@[simp] theorem State.tick_time (env : Bool) (s : State) : (s.tick env).time = s.time + 1 := State.tickStep_time env _

@[simp] theorem State.tick_ovr (env : Bool) (s : State) : (s.tick env).ovr = s.ovr := State.tickStep_ovr env _

@[simp] theorem State.clkCycle_ovr (env : Bool) (s : State) : (s.clkCycle env).ovr = s.ovr := by
  unfold State.clkCycle
  split
  · rfl
  · exact State.tick_ovr env s

@[simp] theorem State.freeTick_ovr (s : State) : s.freeTick.ovr = s.ovr := State.tick_ovr _ _

/-- TIME's increment as a number (10_state.md R33). -/
theorem toNat_time_succ (t : Word) : (t + 1).toNat = (t.toNat + 1) % 2 ^ 32 := BitVec.toNat_add t 1

/-! ### Registers and accesses (20_memory.md R63) -/

/-- OVR is bit 3 of STATUS (10_state.md R26). -/
theorem State.status_bit_ovr (s : State) : s.status.getLsbD 3 = s.ovr := by
  simp only [State.status, BitVec.getLsbD_setWidth, BitVec.getLsbD_append]
  simp

theorem State.status_reserved (s : State) {k : Nat} (hk : 8 ≤ k) : s.status.getLsbD k = false := by
  rw [State.status, BitVec.getLsbD_setWidth, BitVec.getLsbD_of_ge _ _ hk, Bool.and_false]

theorem State.ctrl_reserved (s : State) {k : Nat} (hk : 1 ≤ k) : s.ctrl.getLsbD k = false := by
  rw [State.ctrl, BitVec.getLsbD_setWidth, BitVec.getLsbD_of_ge _ _ hk, Bool.and_false]

theorem regWrite_ignored {r : Reg} (hcmd : r ≠ .cmd) (hctrl : r ≠ .ctrl) (v : Word) (s : State) :
    regWrite r v s = .next s := by
  cases r with
  | cmd => exact absurd rfl hcmd
  | ctrl => exact absurd rfl hctrl
  | status | rxdata | temp | time | reserved18 | reserved1C => rfl

/-- Everything an access can do: a read, a write to CMD, a write to CTRL, or a write that is ignored. -/
theorem access_cases {a : Access} {s t : State} (h : access a s = .next t) :
    (∃ r, a = .read r ∧ t = { s with rdata := s.regRead r }) ∨
    (∃ w, a = .write .cmd w ∧ t = s.issue (·.acceptWord w)) ∨
    (∃ v, a = .write .ctrl v ∧ t = { s with gate := v.getLsbD 0 }) ∨
    (∃ r v, a = .write r v ∧ r ≠ .cmd ∧ r ≠ .ctrl ∧ t = s) := by
  cases ha : a.admissible with
  | false => simp [access_refused ha] at h
  | true =>
    obtain ⟨r, rfl | ⟨v, rfl⟩⟩ := a.admissible_iff.mp ha
    · rw [access_read] at h
      cases h
      exact .inl ⟨r, rfl, rfl⟩
    · rw [access_write] at h
      by_cases hcmd : r = .cmd
      · subst hcmd
        rw [regWrite, command_eq_issue] at h
        cases h
        exact .inr (.inl ⟨v, rfl, rfl⟩)
      by_cases hctrl : r = .ctrl
      · subst hctrl
        cases h
        exact .inr (.inr (.inl ⟨v, rfl, rfl⟩))
      · rw [regWrite_ignored hcmd hctrl] at h
        cases h
        exact .inr (.inr (.inr ⟨r, v, rfl, hcmd, hctrl, rfl⟩))

/-- No host access changes TIME (10_state.md R33). -/
theorem access_time {a : Access} {s t : State} (h : access a s = .next t) : t.time = s.time := by
  obtain ⟨r, -, rfl⟩ | ⟨w, -, rfl⟩ | ⟨v, -, rfl⟩ | ⟨r, v, -, -, -, rfl⟩ := access_cases h
  · rfl
  · exact State.issue_acceptWord_time w s
  · rfl
  · rfl

/-! ### Block reset -/

/-- A cycle with `rst` = 1 and no access outside the interface is a block reset (70_reset_and_hazards.md R260). -/
theorem rstCycle_admissible {oa : Option Access} (h : ∀ a, oa = some a → a.admissible = true) (s : State) :
    rstCycle oa s = .next s.blockReset := by
  cases oa with
  | none => rfl
  | some a => exact if_pos (h a rfl)

/-- STATUS reads 0 after a block reset (10_state.md R50). -/
theorem State.blockReset_status (s : State) : s.blockReset.status = 0 := by
  have hreset : State.reset.status = 0 := by decide
  exact hreset

/-- CTRL reads 1 after a block reset (10_state.md R50). -/
theorem State.blockReset_ctrl (s : State) : s.blockReset.ctrl = 1 := rfl

/-! ### Steps -/

/-- A legal machine performs the move at the head of its schedule. -/
theorem step_cons {s : State} {m : Input} {rest : List Input} (hl : s.params.Legal) (hi : s.inputs = m :: rest) :
    step s = perform m { s with inputs := rest } := by
  rw [step_legal hl, advance_cons hi]

theorem legal_of_step {s t : State} (h : step s = .next t) : s.params.Legal := by
  by_contra hl
  simp [step_illegal hl] at h

/-- A step that succeeds is a free tick or the move at the head of the schedule. -/
theorem step_cases {s t : State} (h : step s = .next t) :
    (s.inputs = [] ∧ t = s.freeTick) ∨
    ∃ m rest, s.inputs = m :: rest ∧ perform m { s with inputs := rest } = .next t := by
  have hl := legal_of_step h
  cases hi : s.inputs with
  | nil =>
    rw [step_legal hl, advance_nil hi] at h
    cases h
    exact .inl ⟨rfl, rfl⟩
  | cons m rest => exact .inr ⟨m, rest, rfl, step_cons hl hi ▸ h⟩

theorem step_write {s : State} {r : Reg} {v : Word} {rest : List Input} (hl : s.params.Legal)
    (hi : s.inputs = .access (.write r v) :: rest) : step s = regWrite r v { s with inputs := rest } := by
  rw [step_cons hl hi, perform, access_write]

/-- A step that takes a write to CTRL puts bit 0 of the word into GATE (10_state.md R30). -/
theorem step_ctrl {s : State} {v : Word} {rest : List Input} (hl : s.params.Legal)
    (hi : s.inputs = .access (.write .ctrl v) :: rest) :
    step s = .next { s with inputs := rest, gate := v.getLsbD 0 } := step_write hl hi

/-- A step that takes a write to CMD issues its word. -/
theorem step_command {s : State} {w : Word} {rest : List Input} (hl : s.params.Legal)
    (hi : s.inputs = .access (.write .cmd w) :: rest) :
    step s = .next (State.issue (·.acceptWord w) { s with inputs := rest }) := by
  rw [step_write hl hi, regWrite, command_eq_issue]

/-- OVR changes only where the move is a write to CMD or a block reset (10_state.md R26). -/
theorem perform_ovr {m : Input} {s t : State} (h : perform m s = .next t) :
    t.ovr = s.ovr ∨ (∃ w, m = .access (.write .cmd w)) ∨ ∃ oa, m = .rst oa := by
  cases m with
  | tick e => cases h; exact .inl (State.tick_ovr e s)
  | clk e => cases h; exact .inl (State.clkCycle_ovr e s)
  | rst oa => exact .inr (.inr ⟨oa, rfl⟩)
  | access a =>
    obtain ⟨r, -, rfl⟩ | ⟨w, rfl, -⟩ | ⟨v, -, rfl⟩ | ⟨r, v, -, -, -, rfl⟩ := access_cases h
    · exact .inl rfl
    · exact .inr (.inl ⟨w, rfl⟩)
    · exact .inl rfl
    · exact .inl rfl

/-! ### The obligations -/

/-- Settles O50: STATUS shows OVR at bit 3, a write to CMD leaves BUSY in it, and no other move but a block reset
changes it. -/
theorem overrunLife : Obligations.OverrunLife := by
  refine ⟨fun s => ⟨s.status_bit_ovr, rfl⟩, fun s t h => ⟨fun w rest hi => ?_, fun hne => ?_⟩⟩
  · rw [step_command (legal_of_step h) hi] at h
    cases h
    exact State.issue_acceptWord_ovr w _
  · obtain ⟨-, rfl⟩ | ⟨m, rest, hi, hp⟩ := step_cases h
    · exact absurd s.freeTick_ovr hne
    · obtain hovr | ⟨w, rfl⟩ | ⟨oa, rfl⟩ := perform_ovr hp
      · exact absurd hovr hne
      · exact .inl ⟨w, rest, hi⟩
      · exact .inr ⟨oa, rest, hi⟩

/-- Settles O11: STATUS is 8 bits wide and CTRL one, and a write to CTRL takes bit 0 alone. -/
theorem reservedBitsReadZero : Obligations.ReservedBitsReadZero := by
  refine fun s => ⟨fun k => s.status_reserved, fun k => s.ctrl_reserved, rfl, rfl,
    fun v rest hl => ⟨?_, fun hi => ?_⟩⟩
  · rintro (hi | hi) <;> exact step_write hl hi
  · have hbit : (v &&& 1).getLsbD 0 = v.getLsbD 0 := by simp
    rw [step_ctrl hl hi, ← hbit]
    exact (step_ctrl (s := { s with inputs := .access (.write .ctrl (v &&& 1)) :: rest }) hl rfl).symm

/-- Settles O21: TIME's increment is that of the tick step, and no access reaches it. -/
theorem timeCountsTicks : Obligations.TimeCountsTicks := by
  refine ⟨fun s e => ?_, fun s e rest hl hi => ⟨_, step_cons hl hi, ?_⟩, fun s => ⟨rfl, rfl⟩,
    fun s t a rest hi h => ?_⟩
  · rw [State.tickStep_time, toNat_time_succ]
  · rw [State.tick_time, toNat_time_succ]
  · rw [step_cons (legal_of_step h) hi] at h
    exact access_time (s := { s with inputs := rest }) h

/-- Settles O22: the step is a block reset, whatever the access, and `State.reset` holds the table of R50. -/
theorem blockResetValues : Obligations.BlockResetValues := by
  intro s oa rest hl hi hadm
  have hstep : step s = .next (State.blockReset { s with inputs := rest }) := by
    rw [step_cons hl hi, perform, rstCycle_admissible hadm]
  have hstatus := State.blockReset_status { s with inputs := rest }
  have hctrl := State.blockReset_ctrl { s with inputs := rest }
  refine ⟨_, hstep, ⟨rfl, rfl, rfl, rfl, rfl, hstatus⟩, ⟨rfl, hctrl⟩, ?_⟩
  -- RXDATA, TEMP and TIME; FSM to DIV; the word a read returns
  exact ⟨rfl, rfl, rfl, rfl, rfl, rfl, rfl, rfl, rfl, rfl, rfl, rfl, rfl, fun _ _ _ => rfl⟩

end Sys2Proof.Machine

namespace Sys2Proof.Machine

/-! ### Addresses and offsets of the window (20_memory.md R61, R62) -/

/-- The address of an access is BASE plus its offset (20_memory.md R61). -/
theorem Access.atAddress_eq_some_iff {addr bytes : Nat} {v : Option Word} {a : Access} :
    Access.atAddress addr bytes v = some a ↔ addr = Config.base + a.off ∧ a.bytes = bytes ∧ a.wdata = v := by
  obtain ⟨off, b, w⟩ := a
  by_cases hbase : Config.base ≤ addr
  · have hoff : addr - Config.base = off ↔ addr = Config.base + off := by omega
    simp [Access.atAddress, hbase, hoff, eq_comm (a := b), eq_comm (a := w)]
  · have hbelow : addr ≠ Config.base + off := by omega
    simp [Access.atAddress, hbase, hbelow]

/-- `bus_addr` of a register's access is its word offset (20_memory.md R61). -/
theorem Access.read_busAddr_toNat (r : Reg) : (Access.read r).busAddr.toNat = r.offset / 4 := by
  cases r <;> decide

/-- An admissible access is 4 bytes wide and stands at the offset of the register it names. -/
theorem Access.bytes_off_of_admissible {a : Access} (h : a.admissible = true) :
    a.bytes = 4 ∧ a.off = a.reg.offset := by
  obtain ⟨r, rfl | ⟨v, rfl⟩⟩ := a.admissible_iff.mp h
  · rw [Access.read_reg]
    exact ⟨rfl, rfl⟩
  · rw [Access.write_reg]
    exact ⟨rfl, rfl⟩

/-- The three ways in which an access is outside the interface (20_memory.md R61, R62). -/
theorem Access.admissible_eq_false_iff (a : Access) :
    a.admissible = false ↔ a.bytes ≠ 4 ∨ a.off % 4 ≠ 0 ∨ 32 ≤ a.off := by
  simp [Access.admissible, imp_iff_not_or, or_assoc]

/-- A legal machine refuses an access outside the interface where it is the next move. -/
theorem step_access_refused {s : State} {a : Access} {rest : List Input} (hl : s.params.Legal)
    (hi : s.inputs = .access a :: rest) (ha : a.admissible = false) :
    step s = .refused .accessOutsideInterface := by
  rw [step_cons hl hi, perform, access_refused ha]

/-- Settles O8: an address fixes the offset, and an admissible offset is that of the register named. -/
theorem windowHasEightRegisters : Obligations.WindowHasEightRegisters := by
  refine ⟨Nat.mul_mod_right 32 _, fun r v => ?_, fun addr bytes v a hat hadm => ?_⟩
  -- what is said of the address and the register of an access does not depend on its data
  · exact ⟨⟨r.offset, 4, v⟩, Access.atAddress_eq_some_iff.mpr ⟨rfl, rfl, rfl⟩, Access.read_admissible r,
      Access.read_busAddr_toNat r, Access.read_reg r, rfl⟩
  · obtain ⟨haddr, hbytes, -⟩ := Access.atAddress_eq_some_iff.mp hat
    obtain ⟨hfour, hoff⟩ := Access.bytes_off_of_admissible hadm
    exact ⟨hbytes.symm.trans hfour, hoff ▸ haddr⟩

/-- Settles O9: a width other than 4 and a misaligned offset are two of the three ways out of the interface. -/
theorem accessOutsideInterfaceIsRefused : Obligations.AccessOutsideInterfaceIsRefused := by
  intro s a rest hl hbad hi
  have ha : a.admissible = false := a.admissible_eq_false_iff.mpr (hbad.imp id .inl)
  exact step_access_refused hl hi ha

end Sys2Proof.Machine

namespace Sys2Proof

/-! ### The operands of a decoded word (30_encoding.md R84) -/

/-- The command with the name of `i` and the operands that the fields of the word `w` hold. -/
def Instr.withFieldsOf (w : Word) : Instr → Instr
  | .delay _ => .delay (nField w)
  | .writeBit _ => .writeBit (bField w)
  | .writeByte _ => .writeByte (dField w)
  | .decode _ _ => .decode (thField w) (dField w)
  | i => i

/-- Each row of the decoder answers with the fields of the word as operands, so they determine the command decoded. -/
theorem eq_withFieldsOf_of_decode {w : Word} {i : Instr} (h : decode w = .ok i) : i = i.withFieldsOf w := by
  unfold decode at h
  split_ifs at h <;> cases h <;> rfl

/-- A field of bits, as a number, is a quotient and a remainder of the word (30_encoding.md R84). -/
theorem toNat_extractLsb'_eq_div_mod (w : Word) (start len : Nat) :
    (w.extractLsb' start len).toNat = w.toNat / 2 ^ start % 2 ^ len := by
  rw [BitVec.extractLsb'_toNat, Nat.shiftRight_eq_div_pow]

theorem nField_toNat (w : Word) : (nField w).toNat = w.toNat / 2 ^ 8 % 2 ^ 16 := toNat_extractLsb'_eq_div_mod w 8 16

theorem bField_eq_testBit (w : Word) : bField w = w.toNat.testBit 8 := (BitVec.testBit_toNat w).symm

theorem dField_toNat (w : Word) : (dField w).toNat = w.toNat / 2 ^ 8 % 2 ^ 8 := toNat_extractLsb'_eq_div_mod w 8 8

theorem thField_toNat (w : Word) : (thField w).toNat = w.toNat / 2 ^ 16 % 2 ^ 8 := toNat_extractLsb'_eq_div_mod w 16 8

/-- Settles O4: the operands decoded are the word's fields, and each field is a quotient and a remainder of the word. -/
theorem operandsAreFieldsOfTheWord : Obligations.OperandsAreFieldsOfTheWord := by
  refine fun w => ⟨fun n h => ?_, fun b h => ?_, fun d h => ?_, fun th tl h => ?_⟩
  · obtain rfl : n = nField w := Instr.delay.inj (eq_withFieldsOf_of_decode h)
    exact nField_toNat w
  · obtain rfl : b = bField w := Instr.writeBit.inj (eq_withFieldsOf_of_decode h)
    exact bField_eq_testBit w
  · obtain rfl : d = dField w := Instr.writeByte.inj (eq_withFieldsOf_of_decode h)
    exact dField_toNat w
  · obtain ⟨rfl, rfl⟩ : th = thField w ∧ tl = dField w := Instr.decode.inj (eq_withFieldsOf_of_decode h)
    exact ⟨dField_toNat w, thField_toNat w⟩

end Sys2Proof

namespace Sys2Proof.Config

/-! ### The clock divider (40_timing.md R100) -/

/-- With the ceiling as TICK_DIV a tick is longer than a microsecond by less than one `clk` cycle. -/
theorem tickDivDefault_lt : 1000000 * tickDivDefault < fClkHz + 1000000 := by
  have hpos := fClkHz_pos
  unfold tickDivDefault
  omega

end Sys2Proof.Config

namespace Sys2Proof.Machine

/-- Before the last `clk` cycle of a tick, a cycle only counts. -/
theorem State.clkCycle_of_lt {s : State} (env : Bool) (h : s.div + 1 < s.params.tickDiv) :
    s.clkCycle env = { s with div := s.div + 1 } := if_pos h

/-- In the last `clk` cycle of a tick DIV wraps to 0 and the tick step is taken. -/
theorem State.clkCycle_of_wrap {s : State} (env : Bool) (h : s.params.tickDiv ≤ s.div + 1) :
    s.clkCycle env = { s with div := 0 }.tickStep env := if_neg h.not_gt

/-- A run of `clk` cycles that does not reach TICK_DIV adds its length to DIV and changes nothing else. -/
theorem State.foldl_clkCycle_of_lt (levels : List Bool) {s : State} (h : s.div + levels.length < s.params.tickDiv) :
    levels.foldl (fun t l => t.clkCycle l) s = { s with div := s.div + levels.length } := by
  induction levels generalizing s with
  | nil => rfl
  | cons l ls ih =>
    rw [List.length_cons] at h
    have hrest : s.div + 1 + ls.length < s.params.tickDiv := by omega
    have hlen : s.div + 1 + ls.length = s.div + (l :: ls).length := by rw [List.length_cons]; omega
    rw [List.foldl_cons, State.clkCycle_of_lt l (by omega), ih hrest, hlen]

/-- Settles O17: TICK_DIV is the ceiling or more, the cycles before the wrap only count DIV up to TICK_DIV - 1, and the
next one wraps. -/
theorem tickEveryTickDivCycles : Obligations.TickEveryTickDivCycles := by
  refine ⟨Config.Params.tickDiv_ge, Config.tickDivDefault_lt, fun s levels e h => ?_⟩
  have hcount := State.foldl_clkCycle_of_lt levels (s := s) (by omega)
  refine ⟨hcount, ?_⟩
  rw [hcount]
  exact State.clkCycle_of_wrap (s := { s with div := s.div + levels.length }) e h.ge

end Sys2Proof.Machine

namespace Sys2Proof.Machine

/-! ### The magnitude of a raw word (45_decoder.md R211) -/

/-- The magnitude, as a number: the 16-bit complement, then a 16-bit increment. -/
theorem rawMagnitude_toNat (t : Raw) : (rawMagnitude t).toNat = (0xFFFF - t.toNat + 1) % 2 ^ 16 := by
  rw [rawMagnitude, BitVec.toNat_add, BitVec.toNat_not]
  rfl

/-- The increment wraps only for the word 0, so elsewhere the magnitude is the word's distance from 0x10000. -/
theorem rawMagnitude_toNat_of_pos {t : Raw} (h : 0 < t.toNat) : (rawMagnitude t).toNat = 0x10000 - t.toNat := by
  have hlt := t.isLt
  rw [rawMagnitude_toNat, Nat.mod_eq_of_lt (by omega)]
  omega

/-- Settles O58: on the negative range the increment does not wrap, so the magnitude is the distance from 0x10000. -/
theorem magnitudeIsSixteenBit : Obligations.MagnitudeIsSixteenBit := by
  refine ⟨fun t ht => ?_, fun t => ⟨BitVec.toNat_not, rawMagnitude_toNat t⟩, by decide⟩
  have hlt := t.isLt
  have hmag := rawMagnitude_toNat_of_pos (t := t) (by omega)
  exact ⟨hmag, by omega, by omega⟩

end Sys2Proof.Machine

namespace Sys2Proof.Machine

/-! ### A write to CMD while busy and while idle (60_exceptions.md R236, R239) -/

theorem exec_busy {s : State} (h : s.fsm = .run) (i : Instr) : exec i s = .next s.drop := by
  rw [exec_eq_issue, State.issue_busy (State.busy_eq_true.mpr h)]

theorem exec_idle {s : State} (h : s.fsm = .idle) (i : Instr) : exec i s = .next (s.clearFlags.accept i) := by
  rw [exec_eq_issue, State.issue_idle (State.busy_eq_false.mpr h)]

theorem step_command_busy {s : State} {w : Word} {rest : List Input} (hl : s.params.Legal)
    (hi : s.inputs = .access (.write .cmd w) :: rest) (h : s.fsm = .run) :
    step s = .next (State.drop { s with inputs := rest }) := by
  rw [step_command hl hi, State.issue_busy (s := { s with inputs := rest }) (State.busy_eq_true.mpr h)]

theorem step_command_idle {s : State} {w : Word} {rest : List Input} (hl : s.params.Legal)
    (hi : s.inputs = .access (.write .cmd w) :: rest) (h : s.fsm = .idle) :
    step s = .next ((State.clearFlags { s with inputs := rest }).acceptWord w) := by
  rw [step_command hl hi, State.issue_idle (s := { s with inputs := rest }) (State.busy_eq_false.mpr h)]

/-! ### The outcomes of acceptance -/

/-- A bus data command that finds the gate shut (60_exceptions.md R238). -/
theorem State.accept_shut {i : Instr} {a : State} (hi : isBusData i = true) (h : a.gateOpen = false) :
    a.accept i = a.finish .notInit := by
  cases i with
  | writeBit b => exact State.gated_shut h _
  | readBit => exact State.gated_shut h _
  | writeByte d => exact State.gated_shut h _
  | readByte => exact State.gated_shut h _
  | delay | reset | presence | init | decode => cases hi

/-- A command that the gate does not stop starts, or completes without an error and with no change but TEMP. -/
theorem State.accept_ungated {i : Instr} {a : State} (h : isBusData i = false ∨ a.gateOpen = true) :
    a.accept i = a.begin i ∨ a.accept i = a.clearPresent.begin i ∨
    ∃ v, a.accept i = { a with temp := v }.finish .none := by
  have gated (hb : isBusData i = true) : a.gated (·.begin i) = a.begin i :=
    State.gated_open (h.resolve_left (by simp [hb])) _
  cases i with
  | delay n =>
    by_cases hn : n = 0
    · exact .inr (.inr ⟨a.temp, if_pos hn⟩)
    · exact .inl (if_neg hn)
  | writeBit b => exact .inl (gated rfl)
  | readBit => exact .inl (gated rfl)
  | writeByte d => exact .inl (gated rfl)
  | readByte => exact .inl (gated rfl)
  | reset => exact .inr (.inl rfl)
  | presence => exact .inr (.inl rfl)
  | init => exact .inr (.inl rfl)
  | decode th tl => exact .inr (.inr ⟨decodeTemp th tl, rfl⟩)

/-- An idle OWC with its flags cleared runs a command that the gate does not stop, or is done with it, without an error
(60_exceptions.md R239). -/
theorem State.accept_ungated_outcome {i : Instr} {a : State} (h : isBusData i = false ∨ a.gateOpen = true)
    (hidle : a.fsm = .idle) (herr : a.err = .none) :
    (a.accept i).err = .none ∧
    ((a.accept i).fsm = .run ∧ (a.accept i).opr = some i ∨ (a.accept i).fsm = .idle ∧ (a.accept i).done = true) := by
  obtain ha | ha | ⟨v, ha⟩ := State.accept_ungated h <;> simp [ha, hidle, herr]

/-- Whatever its word, an accepted command runs or is done. -/
theorem State.acceptWord_run_or_done (w : Word) (a : State) :
    (a.acceptWord w).fsm = .run ∨ (a.acceptWord w).done = true := by
  cases hw : decode w with
  | ok i =>
    rw [State.acceptWord_ok hw]
    obtain ⟨e, h⟩ | h | h | ⟨th, tl, -, h⟩ := a.accept_cases i <;> simp [h]
  | error e => simp [State.acceptWord_error hw]

/-! ### Ticks of an idle OWC, and after a drop -/

/-- While idle a tick step only advances TIME (60_exceptions.md R249). -/
theorem State.tickStep_idle {s : State} (h : s.fsm = .idle) (env : Bool) : s.tickStep env = s.advanceTime :=
  State.tickStep_waiting (by simp [h]) env

/-- A dropped command does not disturb the running operation: no tick looks at OVR (60_exceptions.md R236). -/
theorem State.ticks_drop (es : List Bool) (s : State) : s.drop.ticks es = (s.ticks es).drop := by
  have hself : s.ticks es = (s.ticks es).unseen s.ovr s.gate s.rdata s.inputs s.draws :=
    State.ticks_unseen es s s.ovr s.gate s.rdata s.inputs s.draws
  calc s.drop.ticks es
    _ = (s.ticks es).unseen true s.gate s.rdata s.inputs s.draws := State.ticks_unseen es s _ _ _ _ _
    _ = ((s.ticks es).unseen s.ovr s.gate s.rdata s.inputs s.draws).drop := rfl
    _ = (s.ticks es).drop := by rw [← hself]

/-! ### Which operations can fail

An error code while running comes from the detector's bounds alone, and only the pseudocode of PRESENCE and INIT has the
detector. -/

/-- Without the detector's bounds, running actions either goes on with the operation or completes without an error. -/
theorem runActions_err {l : List Action} (h : .detectNext ∉ l) (env : Bool) (s : State) :
    (runActions env l s).fsm = s.fsm ∨ (runActions env l s).err = .none := by
  induction l generalizing s with
  | nil => exact .inr rfl
  | cons a l ih =>
    obtain ⟨ha, hl⟩ := not_or.mp (List.mem_cons.not.mp h)
    cases a with
    | detectNext => exact absurd rfl ha
    | wait n =>
      by_cases hn : n = 0
      · simpa [runActions, hn] using ih hl s
      · exact .inl (by simp [runActions, hn])
    | detect =>
      left
      simp only [runActions, State.detectFirst, State.detectHigh_eq]
      split <;> rfl
    | driveLow => simpa [runActions] using ih hl s.driveLow
    | release => simpa [runActions] using ih hl s.release
    | sample => exact ih hl (s.sampleBit env)
    | setBi i => exact ih hl { s with bi := .ofNat 3 i }
    | clearSh => exact ih hl { s with sh := 0 }
    | accumulate i => exact ih hl (s.accumulate i)
    | latchBit => exact ih hl s.latchBit
    | latchByte => exact ih hl s.latchByte

/-- Without the detector, what is left of a pseudocode is an end of it. -/
theorem fromOffset_suffix {l : List Action} (h : .detect ∉ l) (c : Nat) : fromOffset l c <:+ l := by
  induction l generalizing c with
  | nil => exact List.suffix_rfl
  | cons a l ih =>
    obtain ⟨ha, hl⟩ := not_or.mp (List.mem_cons.not.mp h)
    have later (k : Nat) : fromOffset l k <:+ a :: l := (ih hl k).trans (List.suffix_cons a l)
    by_cases hc : c = 0
    · rw [hc, fromOffset_zero]
    cases a with
    | detect => exact absurd rfl ha
    | wait n =>
      rw [fromOffset, if_neg hc]
      by_cases hn : n ≤ c
      · exact if_pos hn ▸ later (c - n)
      · exact if_neg hn ▸ List.nil_suffix
    | driveLow | release | sample | setBi | clearSh | accumulate | latchBit | latchByte | detectNext =>
      rw [fromOffset, if_neg hc]
      exact later c

theorem detectNext_not_mem_script (p : Config.Params) (i : Instr) : .detectNext ∉ script p i := by
  cases i <;> simp [script, delayScript, writeBitScript, readBitScript, writeByteScript, readByteScript, resetScript,
    presenceScript, initScript, writeTurn, readTurn, writeSlot, readSlotToSample]

theorem detect_not_mem_script (p : Config.Params) {i : Instr} (hp : i ≠ .presence) (hi : i ≠ .init) :
    .detect ∉ script p i := by
  cases i with
  | presence => exact absurd rfl hp
  | init => exact absurd rfl hi
  | _ => simp [script, delayScript, writeBitScript, readBitScript, writeByteScript, readByteScript, resetScript,
      writeTurn, readTurn, writeSlot, readSlotToSample]

theorem State.detectNext_not_mem_oprScript (s : State) : .detectNext ∉ s.oprScript := by
  unfold State.oprScript
  split
  · exact detectNext_not_mem_script _ _
  · exact List.not_mem_nil

theorem State.detect_not_mem_oprScript {s : State} (hp : s.opr ≠ some .presence) (hi : s.opr ≠ some .init) :
    .detect ∉ s.oprScript := by
  unfold State.oprScript
  split
  next i h => exact detect_not_mem_script _ (by rintro rfl; exact hp h) (by rintro rfl; exact hi h)
  next => exact List.not_mem_nil

/-- A tick that completes an operation other than PRESENCE and INIT leaves no error (60_exceptions.md R239). -/
theorem State.tickStep_err {s : State} (hr : s.fsm = .run) (hp : s.opr ≠ some .presence) (hi : s.opr ≠ some .init)
    (env : Bool) (h : (s.tickStep env).fsm = .idle) : (s.tickStep env).err = .none := by
  have hleft : .detectNext ∉ fromOffset s.oprScript s.c.toNat := fun hmem =>
    s.detectNext_not_mem_oprScript ((fromOffset_suffix (State.detect_not_mem_oprScript hp hi) _).subset hmem)
  obtain ht | ht := s.tickStep_cases env
  · simp [ht, hr] at h
  · rw [ht] at h ⊢
    refine (runActions_err hleft env s.advanceTime).resolve_left fun hf => ?_
    have hrun : (s.advanceTime.resume env).fsm = .run := hf.trans hr
    simp [hrun] at h

/-! ### Every move inside the interface has a next state -/

theorem regWrite_next (r : Reg) (v : Word) (s : State) : ∃ t, regWrite r v s = .next t := by
  cases r with
  | cmd => exact ⟨_, command_eq_issue v s⟩
  | ctrl | status | rxdata | temp | time | reserved18 | reserved1C => exact ⟨_, rfl⟩

theorem access_next {a : Access} (h : a.admissible = true) (s : State) : ∃ t, access a s = .next t := by
  obtain ⟨r, rfl | ⟨v, rfl⟩⟩ := a.admissible_iff.mp h
  · exact ⟨_, access_read r s⟩
  · exact access_write r v s ▸ regWrite_next r v s

theorem perform_next {m : Input} (h : ∀ a, m = .access a ∨ m = .rst (some a) → a.admissible = true) (s : State) :
    ∃ t, perform m s = .next t := by
  cases m with
  | tick e => exact ⟨_, rfl⟩
  | clk e => exact ⟨_, rfl⟩
  | access a => exact access_next (h a (.inl rfl)) s
  | rst oa => exact ⟨_, rstCycle_admissible (fun a ha => h a (.inr (congrArg Input.rst ha))) s⟩

/-! ### The obligations -/

/-- Settles O20: OUT is a field of the invariant, and an idle tick step is not a resumption. -/
theorem idleChangesOnlyTimeAndDiv : Obligations.IdleChangesOnlyTimeAndDiv := by
  refine ⟨fun s hinv => hinv.idle_released, fun s e h => ⟨?_, State.tickStep_idle h e⟩⟩
  obtain hlt | hwrap := Nat.lt_or_ge (s.div + 1) s.params.tickDiv
  · exact ⟨s.div + 1, .inl (State.clkCycle_of_lt e hlt)⟩
  · exact ⟨0, .inr ((State.clkCycle_of_wrap e hwrap).trans (State.tickStep_idle (s := { s with div := 0 }) h e))⟩

/-- Settles O26: a busy OWC drops every write, no tick looks at OVR, and acceptance keeps the cleared OVR. -/
theorem busyDropsEveryCommand : Obligations.BusyDropsEveryCommand := by
  exact ⟨fun s h => ⟨exec_busy h, fun w rest hl hi => step_command_busy hl hi h, fun es => s.ticks_drop es⟩,
    fun u w rest hl hi h => ⟨_, step_command_idle hl hi h, State.acceptWord_ovr w _⟩⟩

/-- Settles O28: one outcome for each check, in their order, and no error without the detector. -/
theorem priorityOfTheChecks : Obligations.PriorityOfTheChecks := by
  refine ⟨fun s w rest hl hi => ⟨step_command_busy hl hi, fun h hbad => ?_, fun h i hw hb hg hp => ?_,
    fun h i hw hopen => ?_⟩, fun s e hr hidle hp hinit => State.tickStep_err hr hp hinit e hidle⟩
  · refine ⟨_, step_command_idle hl hi h, ?_⟩
    cases hw : decode w with
    | ok i => exact absurd hw (hbad i)
    | error r => simp [State.acceptWord_error hw]
  · have hshut : (State.clearFlags { s with inputs := rest }).gateOpen = false := State.gateOpen_eq_false.mpr ⟨hg, hp⟩
    refine ⟨_, step_command_idle hl hi h, ?_⟩
    rw [State.acceptWord_ok hw, State.accept_shut hb hshut]
    exact ⟨rfl, rfl⟩
  · refine ⟨_, step_command_idle hl hi h, ?_⟩
    rw [State.acceptWord_ok hw]
    exact State.accept_ungated_outcome (hopen.imp_right State.gateOpen_eq_true.mpr) h rfl

/-- Settles O29: each move inside the interface has a next state, and acceptance looks at no flag. -/
theorem noErrorIsFatal : Obligations.NoErrorIsFatal := by
  refine ⟨fun s hl hadm => ?_, fun s w rest hl hi h =>
    ⟨_, step_command_idle hl hi h, State.acceptWord_ovr w _, State.acceptWord_run_or_done w _⟩⟩
  cases hi : s.inputs with
  | nil => exact ⟨_, (step_legal hl).trans (advance_nil hi)⟩
  | cons m rest =>
    rw [step_cons hl hi]
    exact perform_next (fun a hm => hadm a rest (by simpa [hi] using hm)) _

/-- Settles O25: an idle OWC accepts the word, and acceptance of an illegal one is `finish`. -/
theorem illegalWordCompletesAtOnce : Obligations.IllegalWordCompletesAtOnce := by
  intro s w e rest hl hi hw h
  rw [step_command_idle hl hi h, State.acceptWord_error hw]
  rfl

/-- Settles O27: a bus data command meets the gate, every other command passes it. -/
theorem shutGateRefusesBusData : Obligations.ShutGateRefusesBusData := by
  refine ⟨fun s i hb h hg hp => ?_, fun s i h hopen => ⟨_, exec_idle h i, ?_⟩⟩
  · have hshut : s.clearFlags.gateOpen = false := State.gateOpen_eq_false.mpr ⟨hg, hp⟩
    rw [exec_idle h, State.accept_shut hb hshut]
    rfl
  · have hpass : isBusData i = false ∨ s.clearFlags.gateOpen = true :=
      hopen.imp_right fun hg => State.gateOpen_eq_true.mpr (.inl hg)
    exact (State.accept_ungated_outcome hpass h rfl).1

end Sys2Proof.Machine

namespace Sys2Proof

/-! ### Words, rows and commands (30_encoding.md R83 to R87) -/

/-- The row of the opcode table that a command's words spell (30_encoding.md R83). -/
def Instr.row : Instr → Row
  | .delay _ => rowDelay
  | .writeBit _ => rowWriteBit
  | .readBit => rowReadBit
  | .writeByte _ => rowWriteByte
  | .readByte => rowReadByte
  | .reset => rowReset
  | .presence => rowPresence
  | .init => rowInit
  | .decode _ _ => rowDecode

theorem Instr.row_mem_opcodeTable (i : Instr) : i.row ∈ opcodeTable := by
  cases i <;> simp [Instr.row, opcodeTable]

/-- Every row fixes OP. -/
theorem opField_eq_of_spells {w : Word} {r : Row} (hr : r ∈ opcodeTable) (h : w.spells r = true) :
    opField w = opField r.pattern := by
  have hop : ∀ r ∈ opcodeTable, opField r.mask = 0xF := by decide
  have hand : opField (w &&& r.mask) = opField w &&& opField r.mask := BitVec.extractLsb'_and
  have hones : opField w &&& 0xF = opField w := BitVec.and_allOnes
  rw [← (spells_iff w r).mp h, hand, hop r hr, hones]

/-- No two rows have the same OP, so a word spells one row at most. -/
theorem row_eq_of_spells {w : Word} {r q : Row} (hr : r ∈ opcodeTable) (hq : q ∈ opcodeTable)
    (h : w.spells r = true) (k : w.spells q = true) : r = q := by
  have hinj : ∀ r ∈ opcodeTable, ∀ q ∈ opcodeTable, opField r.pattern = opField q.pattern → r = q := by decide
  exact hinj r hr q hq ((opField_eq_of_spells hr h).symm.trans (opField_eq_of_spells hq k))

/-- A word that spells one row spells no other. -/
theorem spells_eq_decide {w : Word} {r : Row} (hr : r ∈ opcodeTable) (h : w.spells r = true) {q : Row}
    (hq : q ∈ opcodeTable) : w.spells q = decide (r = q) := by
  by_cases hrq : r = q
  · simpa [← hrq] using h
  · simpa [hrq] using fun k => hrq (row_eq_of_spells hr hq h k)

/-- A word decodes to the command whose row it spells, with the operands in its fields (30_encoding.md R83, R84). -/
theorem decode_of_spells {w : Word} {i : Instr} (h : w.spells i.row = true) : decode w = .ok (i.withFieldsOf w) := by
  have other {q : Row} (hq : q ∈ opcodeTable) : w.spells q = decide (i.row = q) :=
    spells_eq_decide i.row_mem_opcodeTable h hq
  simp only [opcodeTable, List.mem_cons, List.not_mem_nil, or_false] at other
  unfold decode
  cases i <;> simp [other] <;> rfl

theorem spells_of_decode {w : Word} {i : Instr} (h : decode w = .ok i) : w.spells i.row = true := by
  unfold decode at h
  split_ifs at h <;> cases h <;> assumption

theorem decode_eq_ok_iff {w : Word} {i : Instr} : decode w = .ok i ↔ w.spells i.row = true ∧ i = i.withFieldsOf w := by
  refine ⟨fun h => ⟨spells_of_decode h, eq_withFieldsOf_of_decode h⟩, fun ⟨h, hi⟩ => ?_⟩
  rw [decode_of_spells h, ← hi]


/-- The operands of a command as one number, above OP and Z0 in its word (30_encoding.md R80, R87). -/
def Instr.arg : Instr → Nat
  | .delay n => n.toNat
  | .writeBit b => b.toNat
  | .writeByte d => d.toNat
  | .decode th tl => th.toNat * 2 ^ 8 + tl.toNat
  | _ => 0

/-- An operand of at most 16 bits at bit 8 and an opcode below it, as a number. -/
theorem toNat_operand_or {n : Nat} (hn : n ≤ 16) (a : BitVec n) {k : Word} (hk : k.toNat < 2 ^ 8) :
    (a.setWidth 32 <<< 8 ||| k).toNat = a.toNat * 2 ^ 8 + k.toNat := by
  have hlt : a.toNat < 2 ^ 16 := Nat.lt_of_lt_of_le a.isLt (Nat.pow_le_pow_right (by omega) hn)
  rw [BitVec.toNat_or, BitVec.toNat_shiftLeft, BitVec.toNat_setWidth, Nat.shiftLeft_eq,
    Nat.mod_eq_of_lt (a := a.toNat) (by omega), Nat.mod_eq_of_lt (by omega), Nat.mul_comm,
    Nat.two_pow_add_eq_or_of_lt hk]

/-- `enc` of every command, as a number (30_encoding.md R87). -/
theorem toNat_encode (i : Instr) : (encode i).toNat = i.arg * 2 ^ 8 + i.op := by
  cases i with
  | delay n => exact toNat_operand_or (by omega) n (by decide)
  | writeBit b =>
    rw [Instr.arg, ← BitVec.toNat_ofBool]
    exact toNat_operand_or (by omega) (.ofBool b) (by decide)
  | writeByte d => exact toNat_operand_or (by omega) d (by decide)
  | decode th tl =>
    have happ : (th ++ tl).toNat = th.toNat * 2 ^ 8 + tl.toNat := by
      rw [BitVec.toNat_append, Nat.shiftLeft_eq, Nat.mul_comm, Nat.two_pow_add_eq_or_of_lt tl.isLt]
    rw [encode_decode_eq, Instr.arg, ← happ]
    exact toNat_operand_or (by omega) (th ++ tl) (by decide)
  | readBit | readByte | reset | presence | init => rfl

/-- The fields of a command's word are its operands. -/
theorem withFieldsOf_encode (i : Instr) : i.withFieldsOf (encode i) = i := by
  have hw := toNat_encode i
  cases i with
  | delay n =>
    have hn : nField (encode (.delay n)) = n := by
      apply BitVec.eq_of_toNat_eq
      rw [nField_toNat, hw, Instr.arg, Instr.op]
      omega
    rw [Instr.withFieldsOf, hn]
  | writeBit b => cases b <;> rfl
  | writeByte d =>
    have hd : dField (encode (.writeByte d)) = d := by
      apply BitVec.eq_of_toNat_eq
      rw [dField_toNat, hw, Instr.arg, Instr.op]
      omega
    rw [Instr.withFieldsOf, hd]
  | decode th tl =>
    have htl : dField (encode (.decode th tl)) = tl := by
      apply BitVec.eq_of_toNat_eq
      rw [dField_toNat, hw, Instr.arg, Instr.op]
      omega
    have hth : thField (encode (.decode th tl)) = th := by
      apply BitVec.eq_of_toNat_eq
      rw [thField_toNat, hw, Instr.arg, Instr.op]
      omega
    rw [Instr.withFieldsOf, hth, htl]
  | readBit | readByte | reset | presence | init => rfl

/-- The word of a command whose operands are the fields of `w` is `w` with its fixed bits made the row's. -/
theorem encode_withFieldsOf (i : Instr) (w : Word) :
    encode (i.withFieldsOf w) = w &&& ~~~i.row.mask ||| i.row.pattern := by
  apply BitVec.eq_of_getLsbD_eq
  intro k hk
  cases i with
  | delay n =>
    simp only [encode, Instr.withFieldsOf, Instr.row, rowDelay, nField]
    interval_cases k <;> simp
  | writeBit b =>
    simp only [encode, Instr.withFieldsOf, Instr.row, rowWriteBit, bField]
    interval_cases k <;> simp
  | writeByte d =>
    simp only [encode, Instr.withFieldsOf, Instr.row, rowWriteByte, dField]
    interval_cases k <;> simp
  | decode th tl =>
    simp only [encode, Instr.withFieldsOf, Instr.row, rowDecode, thField, dField]
    interval_cases k <;> simp
  | readBit | readByte | reset | presence | init =>
    simp [encode, Instr.withFieldsOf, Instr.row, rowReadBit, rowReadByte, rowReset, rowPresence, rowInit]

/-- Every row's pattern lies in its mask. -/
theorem pattern_and_mask {r : Row} (hr : r ∈ opcodeTable) : r.pattern &&& r.mask = r.pattern := by
  revert r
  decide

/-- A command's word spells the command's row. -/
theorem spells_encode (i : Instr) : Word.spells (encode i) i.row = true := by
  have hword := encode_withFieldsOf i (encode i)
  rw [withFieldsOf_encode] at hword
  rw [spells_iff, hword]
  calc (encode i &&& ~~~i.row.mask ||| i.row.pattern) &&& i.row.mask
    _ = encode i &&& (~~~i.row.mask &&& i.row.mask) ||| i.row.pattern &&& i.row.mask := by
      rw [BitVec.and_or_distrib_right, BitVec.and_assoc]
    _ = i.row.pattern := by rw [pattern_and_mask i.row_mem_opcodeTable]; simp

theorem decode_encode (i : Instr) : decode (encode i) = .ok i :=
  decode_eq_ok_iff.mpr ⟨spells_encode i, (withFieldsOf_encode i).symm⟩

theorem encode_of_decode {w : Word} {i : Instr} (h : decode w = .ok i) : encode i = w := by
  obtain ⟨hs, hi⟩ := decode_eq_ok_iff.mp h
  rw [hi, encode_withFieldsOf, ← (spells_iff w i.row).mp hs]
  calc w &&& ~~~i.row.mask ||| w &&& i.row.mask
    _ = w &&& (~~~i.row.mask ||| i.row.mask) := BitVec.and_or_distrib_left.symm
    _ = w := by rw [BitVec.or_comm, BitVec.or_not_self, BitVec.and_allOnes]

/-- The legal words are the words of commands. -/
theorem decode_eq_ok_iff_encode {w : Word} {i : Instr} : decode w = .ok i ↔ encode i = w :=
  ⟨encode_of_decode, fun h => h ▸ decode_encode i⟩

/-- Settles O1: the word spells the command's row, and the row's fields of it are the operands. -/
theorem decodeEncodeRoundTrip : Obligations.DecodeEncodeRoundTrip := decode_encode

/-- Settles O2: a word is its fields and the fixed bits of its row. -/
theorem encodeDecodeRoundTrip : Obligations.EncodeDecodeRoundTrip := fun _ _ => encode_of_decode

/-- Settles O6: each word is the encoding of its command. -/
theorem sampleWordsDecode : Obligations.SampleWordsDecode :=
  ⟨decode_encode (.delay 100), decode_encode (.writeBit true), decode_encode .readBit, decode_encode (.writeByte 0xCC),
    decode_encode .readByte, decode_encode .reset, decode_encode .presence, decode_encode .init,
    decode_encode (.decode 0xFF 0x9C)⟩

/-- A word decodes to a command of the row of `i` exactly when it has that row's fixed bits. -/
theorem decode_withFieldsOf_iff (w : Word) (i : Instr) :
    decode w = .ok (i.withFieldsOf w) ↔ w &&& i.row.mask = i.row.pattern := by
  have hrow : (i.withFieldsOf w).row = i.row := by cases i <;> rfl
  rw [← spells_iff]
  exact ⟨fun h => hrow ▸ spells_of_decode h, decode_of_spells⟩

/-- Settles O3: a row's command is decoded with the word's fields as operands, and the rows differ in OP. -/
theorem wordsSpellTableRows : Obligations.WordsSpellTableRows := by
  refine ⟨fun w => ?_, fun w r q hr hq => row_eq_of_spells hr hq⟩
  have fields {i : Instr} (h : decode w = .ok i) : decode w = .ok (i.withFieldsOf w) :=
    h.trans (congrArg _ (eq_withFieldsOf_of_decode h))
  have row (i : Instr) := decode_withFieldsOf_iff w i
  refine ⟨?_, ?_, row .readBit, ?_, row .readByte, row .reset, row .presence, row .init, ?_⟩
  · exact ⟨fun ⟨n, h⟩ => (row (.delay n)).mp (fields h), fun h => ⟨_, (row (.delay 0)).mpr h⟩⟩
  · exact ⟨fun ⟨b, h⟩ => (row (.writeBit b)).mp (fields h), fun h => ⟨_, (row (.writeBit false)).mpr h⟩⟩
  · exact ⟨fun ⟨d, h⟩ => (row (.writeByte d)).mp (fields h), fun h => ⟨_, (row (.writeByte 0)).mpr h⟩⟩
  · exact ⟨fun ⟨th, tl, h⟩ => (row (.decode th tl)).mp (fields h), fun h => ⟨_, _, (row (.decode 0 0)).mpr h⟩⟩

/-! ### The illegal words (30_encoding.md R85) -/

/-- What makes a word illegal, as the rule says it. -/
def IllegalWord (w : Word) : Prop :=
  (w.extractLsb' 0 4).toNat = 0 ∨ 10 ≤ (w.extractLsb' 0 4).toNat ∨
    w.extractLsb' 4 4 ≠ 0 ∨ w.extractLsb' 24 8 ≠ 0 ∨
    ((w.extractLsb' 0 4).toNat = 2 ∧ w.extractLsb' 9 15 ≠ 0) ∨
    ((w.extractLsb' 0 4).toNat = 4 ∧ w.extractLsb' 16 8 ≠ 0) ∨
    ((w.extractLsb' 0 4).toNat ∈ [3, 5, 6, 7, 8] ∧ w.extractLsb' 8 16 ≠ 0)

theorem extractLsb'_ne_zero_iff (w : Word) (start len : Nat) :
    w.extractLsb' start len ≠ 0 ↔ w.toNat / 2 ^ start % 2 ^ len ≠ 0 := by
  rw [← toNat_extractLsb'_eq_div_mod, Ne, Ne, BitVec.toNat_eq]
  rfl

/-- The rule in terms of the word as a number. -/
theorem illegalWord_iff (w : Word) :
    IllegalWord w ↔ w.toNat % 16 = 0 ∨ 10 ≤ w.toNat % 16 ∨ w.toNat / 16 % 16 ≠ 0 ∨ 16777216 ≤ w.toNat ∨
      (w.toNat % 16 = 2 ∧ 2 ≤ w.toNat / 256 % 65536) ∨ (w.toNat % 16 = 4 ∧ 256 ≤ w.toNat / 256 % 65536) ∨
      (w.toNat % 16 ∈ [3, 5, 6, 7, 8] ∧ 1 ≤ w.toNat / 256 % 65536) := by
  have hlt := w.isLt
  have hz1 : w.toNat / 16777216 % 256 ≠ 0 ↔ 16777216 ≤ w.toNat := by omega
  have hbit : w.toNat / 512 % 32768 ≠ 0 ↔ 2 ≤ w.toNat / 256 % 65536 := by omega
  have hbyte : w.toNat / 65536 % 256 ≠ 0 ↔ 256 ≤ w.toNat / 256 % 65536 := by omega
  have hnone : w.toNat / 256 % 65536 ≠ 0 ↔ 1 ≤ w.toNat / 256 % 65536 := by omega
  simp only [IllegalWord, extractLsb'_ne_zero_iff, toNat_extractLsb'_eq_div_mod, Nat.reducePow, hz1, hbit, hbyte,
    hnone, Nat.div_one]

/-- A command's word breaks no part of the rule. -/
theorem not_illegalWord_encode (i : Instr) : ¬IllegalWord (encode i) := by
  rw [illegalWord_iff, toNat_encode]
  cases i with
  | delay n => simp only [Instr.arg, Instr.op, List.mem_cons, List.not_mem_nil, or_false]; omega
  | writeBit b => cases b <;> decide
  | writeByte d => simp only [Instr.arg, Instr.op, List.mem_cons, List.not_mem_nil, or_false]; omega
  | decode th tl => simp only [Instr.arg, Instr.op, List.mem_cons, List.not_mem_nil, or_false]; omega
  | readBit | readByte | reset | presence | init => decide

/-- A word that breaks no part of the rule is a command's. -/
theorem exists_encode_of_not_illegalWord {w : Word} (h : ¬IllegalWord w) : ∃ i, encode i = w := by
  rw [illegalWord_iff] at h
  simp only [List.mem_cons, List.not_mem_nil, or_false] at h
  have hlt := w.isLt
  have of_number {i : Instr} (hi : i.arg * 2 ^ 8 + i.op = w.toNat) : ∃ i, encode i = w :=
    ⟨i, BitVec.eq_of_toNat_eq ((toNat_encode i).trans hi)⟩
  have hop : w.toNat % 16 < 10 := by omega
  have hlow : w.toNat % 256 = w.toNat % 16 := by omega
  obtain ⟨op, hopw⟩ : ∃ op, op = w.toNat % 16 := ⟨_, rfl⟩
  rw [← hopw] at hop hlow h
  interval_cases op
  · omega
  · exact of_number (i := .delay (.ofNat 16 (w.toNat / 256)))
      (by simp only [Instr.arg, Instr.op, BitVec.toNat_ofNat, Nat.reducePow]; omega)
  · exact of_number (i := .writeBit (decide (w.toNat / 256 = 1)))
      (by
        obtain hb | hb : w.toNat / 256 = 0 ∨ w.toNat / 256 = 1 := by omega
        all_goals
          simp only [Instr.arg, Instr.op, hb, decide_true, Nat.zero_ne_one, decide_false, Bool.toNat_true,
            Bool.toNat_false]
          omega)
  · exact of_number (i := .readBit) (by simp only [Instr.arg, Instr.op]; omega)
  · exact of_number (i := .writeByte (.ofNat 8 (w.toNat / 256)))
      (by simp only [Instr.arg, Instr.op, BitVec.toNat_ofNat, Nat.reducePow]; omega)
  · exact of_number (i := .readByte) (by simp only [Instr.arg, Instr.op]; omega)
  · exact of_number (i := .reset) (by simp only [Instr.arg, Instr.op]; omega)
  · exact of_number (i := .presence) (by simp only [Instr.arg, Instr.op]; omega)
  · exact of_number (i := .init) (by simp only [Instr.arg, Instr.op]; omega)
  · exact of_number (i := .decode (.ofNat 8 (w.toNat / 65536)) (.ofNat 8 (w.toNat / 256)))
      (by simp only [Instr.arg, Instr.op, BitVec.toNat_ofNat, Nat.reducePow]; omega)

/-- A word is illegal exactly when it is no command's. -/
theorem decode_error_iff (w : Word) : (∃ e, decode w = .error e) ↔ ¬∃ i, encode i = w := by
  simp only [← decode_eq_ok_iff_encode]
  cases decode w <;> simp

/-- Settles O5: the rule holds of a word exactly when the word is no command's. -/
theorem illegalWordsAreThoseOfTheRule : Obligations.IllegalWordsAreThoseOfTheRule := by
  intro w
  rw [decode_error_iff]
  refine ⟨fun h => ?_, fun h ⟨i, hi⟩ => ?_⟩
  · by_contra hw
    exact h (exists_encode_of_not_illegalWord hw)
  · exact not_illegalWord_encode i (hi ▸ h)

/-! ### The assembler (30_encoding.md R87) -/

theorem Asm.assemble_eq {a : Asm} {i : Instr} (h : a.toInstr = some i) :
    a.assemble = some (.ofNat 32 (i.arg * 2 ^ 8 + i.op)) := by
  have hw : encode i = .ofNat 32 (i.arg * 2 ^ 8 + i.op) := by
    rw [← toNat_encode, BitVec.ofNat_toNat, BitVec.setWidth_eq]
  rw [Asm.assemble, h, Option.map_some, hw]

/-- An operand out of range is an assembly error. -/
theorem Asm.assemble_eq_none {a : Asm} (h : a.wellFormed = false) : a.assemble = none := by
  simp [Asm.assemble, Asm.toInstr, h]

/-- The command a line stands for is the line's: no operand is cut. -/
theorem Asm.toAsm_of_toInstr {a : Asm} {i : Instr} (h : a.toInstr = some i) : i.toAsm = a := by
  obtain ⟨hw, hi⟩ := Option.ite_none_right_eq_some.mp h
  cases a with
  | delay n =>
    cases hi
    simp only [Asm.wellFormed, decide_eq_true_eq] at hw
    simp only [Instr.toAsm, BitVec.toNat_ofNat, Nat.mod_eq_of_lt (show n < 2 ^ 16 by omega)]
  | writeBit b =>
    cases hi
    simp only [Asm.wellFormed, decide_eq_true_eq] at hw
    interval_cases b <;> rfl
  | writeByte d =>
    cases hi
    simp only [Asm.wellFormed, decide_eq_true_eq] at hw
    simp only [Instr.toAsm, BitVec.toNat_ofNat, Nat.mod_eq_of_lt (show d < 2 ^ 8 by omega)]
  | decode th tl =>
    cases hi
    simp only [Asm.wellFormed, decide_eq_true_eq, Bool.and_eq_true] at hw
    simp only [Instr.toAsm, BitVec.toNat_ofNat, Nat.mod_eq_of_lt (show th < 2 ^ 8 by omega),
      Nat.mod_eq_of_lt (show tl < 2 ^ 8 by omega)]
  | readBit | readByte | reset | presence | init => cases hi; rfl

/-- Settles O7: a line is assembled by the encoding of its command, which decodes to it. -/
theorem assemblerNeverTruncates : Obligations.AssemblerNeverTruncates := by
  refine ⟨fun n hn => ?_, fun b hb => ?_, rfl, fun d hd => ?_, rfl, rfl, rfl, rfl, fun th tl hth htl => ?_,
    fun n hn => ?_, fun b hb => ?_, fun d hd => ?_, fun th tl hout => ?_, fun a w h => ?_⟩
  · have hi : (Asm.delay n).toInstr = some (.delay (.ofNat 16 n)) := if_pos (decide_eq_true hn)
    rw [Asm.assemble_eq hi, Instr.arg, BitVec.toNat_ofNat, Nat.mod_eq_of_lt (by omega), Instr.op]
  · interval_cases b <;> rfl
  · have hi : (Asm.writeByte d).toInstr = some (.writeByte (.ofNat 8 d)) := if_pos (decide_eq_true hd)
    rw [Asm.assemble_eq hi, Instr.arg, BitVec.toNat_ofNat, Nat.mod_eq_of_lt (by omega), Instr.op]
  · have hi : (Asm.decode th tl).toInstr = some (.decode (.ofNat 8 th) (.ofNat 8 tl)) :=
      if_pos (by simp [Asm.wellFormed, hth, htl])
    rw [Asm.assemble_eq hi, Instr.arg, BitVec.toNat_ofNat, BitVec.toNat_ofNat, Nat.mod_eq_of_lt (by omega),
      Nat.mod_eq_of_lt (by omega), Instr.op, Nat.add_mul, Nat.mul_assoc, ← Nat.pow_add]
  · exact Asm.assemble_eq_none (decide_eq_false (by omega))
  · exact Asm.assemble_eq_none (decide_eq_false (by omega))
  · exact Asm.assemble_eq_none (decide_eq_false (by omega))
  · refine Asm.assemble_eq_none ?_
    simp only [Asm.wellFormed, Bool.and_eq_false_iff, decide_eq_false_iff_not]
    omega
  · obtain ⟨i, hi, rfl⟩ := Option.map_eq_some_iff.mp h
    exact ⟨i, decode_encode i, Asm.toAsm_of_toInstr hi⟩

end Sys2Proof

namespace Sys2Proof.Machine

/-! ### What a resumption and a tick step leave alone -/

section resumeFields

variable (env : Bool) (s : State)

@[simp] theorem State.resume_params : (s.resume env).params = s.params := by
  obtain ⟨h, -⟩ := runActions_frame env (fromOffset s.oprScript s.c.toNat) s
  exact h

@[simp] theorem State.resume_gate : (s.resume env).gate = s.gate := by
  obtain ⟨-, h, -⟩ := runActions_frame env (fromOffset s.oprScript s.c.toNat) s
  exact h

@[simp] theorem State.resume_temp : (s.resume env).temp = s.temp := by
  obtain ⟨-, -, h, -⟩ := runActions_frame env (fromOffset s.oprScript s.c.toNat) s
  exact h

@[simp] theorem State.resume_opr : (s.resume env).opr = s.opr := by
  obtain ⟨-, -, -, -, -, h, -⟩ := runActions_frame env (fromOffset s.oprScript s.c.toNat) s
  exact h

@[simp] theorem State.resume_start : (s.resume env).start = s.start := by
  obtain ⟨-, -, -, -, -, -, h, -⟩ := runActions_frame env (fromOffset s.oprScript s.c.toNat) s
  exact h

@[simp] theorem State.resume_div : (s.resume env).div = s.div := by
  obtain ⟨-, -, -, -, -, -, -, h, -⟩ := runActions_frame env (fromOffset s.oprScript s.c.toNat) s
  exact h

@[simp] theorem State.resume_rdata : (s.resume env).rdata = s.rdata := by
  obtain ⟨-, -, -, -, -, -, -, -, h, -⟩ := runActions_frame env (fromOffset s.oprScript s.c.toNat) s
  exact h

@[simp] theorem State.resume_inputs : (s.resume env).inputs = s.inputs := by
  obtain ⟨-, -, -, -, -, -, -, -, -, h, -⟩ := runActions_frame env (fromOffset s.oprScript s.c.toNat) s
  exact h

@[simp] theorem State.resume_draws : (s.resume env).draws = s.draws := by
  obtain ⟨-, -, -, -, -, -, -, -, -, -, h⟩ := runActions_frame env (fromOffset s.oprScript s.c.toNat) s
  exact h

/-- A field that neither TIME's advance nor a resumption writes stays through a tick step. -/
theorem State.tickStep_field {α : Type} (f : State → α) (ht : f s.advanceTime = f s)
    (hr : f (s.advanceTime.resume env) = f s.advanceTime) : f (s.tickStep env) = f s := by
  obtain h | h := s.tickStep_cases env
  · rw [h, ht]
  · rw [h, hr, ht]

@[simp] theorem State.tickStep_params : (s.tickStep env).params = s.params := s.tickStep_field env _ rfl (by simp)
@[simp] theorem State.tickStep_gate : (s.tickStep env).gate = s.gate := s.tickStep_field env _ rfl (by simp)
@[simp] theorem State.tickStep_temp : (s.tickStep env).temp = s.temp := s.tickStep_field env _ rfl (by simp)
@[simp] theorem State.tickStep_opr : (s.tickStep env).opr = s.opr := s.tickStep_field env _ rfl (by simp)
@[simp] theorem State.tickStep_start : (s.tickStep env).start = s.start := s.tickStep_field env _ rfl (by simp)
@[simp] theorem State.tickStep_div : (s.tickStep env).div = s.div := s.tickStep_field env _ rfl (by simp)
@[simp] theorem State.tickStep_rdata : (s.tickStep env).rdata = s.rdata := s.tickStep_field env _ rfl (by simp)
@[simp] theorem State.tickStep_inputs : (s.tickStep env).inputs = s.inputs := s.tickStep_field env _ rfl (by simp)
@[simp] theorem State.tickStep_draws : (s.tickStep env).draws = s.draws := s.tickStep_field env _ rfl (by simp)

end resumeFields

/-- A resumption suspends the operation, its flags as they were, or completes it (60_exceptions.md R233). -/
theorem State.resume_outcome (env : Bool) (s : State) :
    ((s.resume env).fsm = s.fsm ∧ (s.resume env).done = s.done ∧ (s.resume env).err = s.err ∧
      (s.resume env).present = s.present) ∨
    ((s.resume env).fsm = .idle ∧ (s.resume env).done = true ∧ (s.resume env).out = .released) :=
  runActions_outcome env _ s

/-- Settles O19: TIME's advance and the resumption leave the other fields alone. -/
theorem tickStepFrame : Obligations.TickStepFrame := by
  refine fun s e => ⟨?_, ?_⟩
  · rw [State.tickStep_time, toNat_time_succ]
  · simp only [State.tickStep_gate, State.tickStep_temp, State.tickStep_ovr, State.tickStep_opr, State.tickStep_start,
      State.tickStep_div, State.tickStep_params, State.tickStep_rdata, State.tickStep_inputs, State.tickStep_draws,
      and_self]

end Sys2Proof.Machine

namespace Sys2Proof.Machine

/-! ### Where a pseudocode can stand (40_timing.md R103) -/

/-- The actions up to the one that ends the tick: the end, a wait of at least a tick, or the detector. -/
theorem exists_quiet_split (l : List Action) :
    ∃ q m, l = q ++ m ∧ q.all quiet = true ∧
      (m = [] ∨ (∃ n k, 1 ≤ n ∧ m = .wait n :: k) ∨ (∃ k, m = .detect :: k) ∨ ∃ k, m = .detectNext :: k) := by
  induction l with
  | nil => exact ⟨[], [], rfl, rfl, .inl rfl⟩
  | cons a l ih =>
    cases ha : quiet a with
    | true =>
      obtain ⟨q, m, rfl, hq, hm⟩ := ih
      exact ⟨a :: q, m, rfl, by simp [ha, hq], hm⟩
    | false =>
      refine ⟨[], a :: l, rfl, rfl, .inr ?_⟩
      cases a with
      | wait n => exact .inl ⟨n, l, Nat.one_le_iff_ne_zero.mpr (by simpa [quiet] using ha), rfl⟩
      | detect => exact .inr (.inl ⟨l, rfl⟩)
      | detectNext => exact .inr (.inr ⟨l, rfl⟩)
      | driveLow | release | sample | setBi | clearSh | accumulate | latchBit | latchByte => cases ha

/-- The pseudocode S can be suspended at offset c, with the line at o and l left of it. -/
inductive Stands (S : List Action) : Nat → LineOut → List Action → Prop where
  | start : Stands S 0 .released S
  | wait {c : Nat} {o : LineOut} {q m : List Action} {n : Nat} (h : Stands S c o (q ++ .wait n :: m))
      (hq : q.all quiet = true) (hn : 1 ≤ n) : Stands S (c + n) (lineAt q 1 o) m

theorem Stands.reached {S l : List Action} {c : Nat} {o : LineOut} (h : Stands S c o l) : Reached S c l := by
  induction h with
  | start => exact .start S
  | wait _ hq hn ih => exact ih.step hq hn

@[simp] theorem lineAt_zero (l : List Action) (o : LineOut) : lineAt l 0 o = o := by
  cases l <;> simp [lineAt]

/-- The line at a suspension is what the quiet actions before the wait have made it. -/
theorem lineAt_quiet_wait {q : List Action} (hq : q.all quiet = true) {n : Nat} (hn : 1 ≤ n) (m : List Action)
    (k : Nat) (o : LineOut) : lineAt (q ++ .wait n :: m) (n + k) o = lineAt m k (lineAt q 1 o) := by
  induction q generalizing o with
  | nil =>
    have hpos : n ≠ 0 := by omega
    simp [lineAt, hpos]
  | cons a q ih =>
    obtain ⟨ha, hq⟩ := Bool.and_eq_true_iff.mp (List.all_cons ▸ hq)
    have hk : n + k ≠ 0 := by omega
    rw [List.cons_append]
    cases a with
    | wait w =>
      obtain rfl : w = 0 := by simpa [quiet] using ha
      rw [lineAt, if_neg hk, if_pos (Nat.zero_le _), Nat.sub_zero, ih hq]
      simp [lineAt]
    | detect | detectNext => cases ha
    | driveLow | release | sample | setBi | clearSh | accumulate | latchBit | latchByte =>
      rw [lineAt, if_neg hk, ih hq]
      simp [lineAt]

/-- Past a point where S can stand, the line goes on from there. -/
theorem Stands.lineAt_add {S l : List Action} {c : Nat} {o : LineOut} (h : Stands S c o l) (k : Nat) :
    lineAt S (c + k) .released = if k = 0 then o else lineAt l k o := by
  induction h generalizing k with
  | start => by_cases hk : k = 0 <;> simp [hk]
  | wait _ hq hn ih =>
    rw [Nat.add_assoc, ih, if_neg (by omega), lineAt_quiet_wait hq hn]
    by_cases hk : k = 0 <;> simp [hk]

theorem Stands.lineAt_eq {S l : List Action} {c : Nat} {o : LineOut} (h : Stands S c o l) :
    lineAt S c .released = o := h.lineAt_add 0

/-- Quiet actions take no time. -/
theorem stops_quiet {q : List Action} (hq : q.all quiet = true) (here : Nat) (m : List Action) :
    stops here (q ++ m) = stops here m := by
  induction q with
  | nil => rfl
  | cons a q ih =>
    obtain ⟨ha, hq⟩ := Bool.and_eq_true_iff.mp (List.all_cons ▸ hq)
    rw [← ih hq, List.cons_append]
    cases a with
    | wait w =>
      obtain rfl : w = 0 := by simpa [quiet] using ha
      rfl
    | detect | detectNext => cases ha
    | driveLow | release | sample | setBi | clearSh | accumulate | latchBit | latchByte => rfl

theorem stops_wait {n : Nat} (hn : 1 ≤ n) (here : Nat) (m : List Action) :
    stops here (.wait n :: m) = (here + n) :: stops (here + n) m := by
  rw [stops, if_neg (by omega)]

theorem Stands.stops_subset {S l : List Action} {c : Nat} {o : LineOut} (h : Stands S c o l) :
    stops c l ⊆ stops 0 S := by
  induction h with
  | start => exact List.Subset.refl _
  | wait _ hq hn ih =>
    rw [stops_quiet hq, stops_wait hn] at ih
    exact List.Subset.trans (List.subset_cons_self _ _) ih

theorem Stands.eq_zero_or_mem_stops {S l : List Action} {c : Nat} {o : LineOut} (h : Stands S c o l) :
    c = 0 ∨ c ∈ stops 0 S := by
  cases h with
  | start => exact .inl rfl
  | wait h hq hn =>
    refine .inr (h.stops_subset ?_)
    rw [stops_quiet hq, stops_wait hn]
    exact List.mem_cons_self

/-- From where S stands, it can stand at every stop ahead. -/
theorem Stands.of_mem_stops {S : List Action} {k : Nat} (l : List Action) {q : List Action} {c : Nat} {o : LineOut}
    (h : Stands S c o (q ++ l)) (hq : q.all quiet = true) (hk : k ∈ stops c l) : ∃ o' m, Stands S k o' m := by
  induction l generalizing q c o with
  | nil => cases hk
  | cons a l ih =>
    cases ha : quiet a with
    | true =>
      have hone : [a].all quiet = true := by simp [ha]
      rw [← List.singleton_append, stops_quiet hone] at hk
      exact ih (q := q ++ [a]) (by simpa using h) (by simp [hq, ha]) hk
    | false =>
      cases a with
      | wait n =>
        have hn : 1 ≤ n := Nat.one_le_iff_ne_zero.mpr (by simpa [quiet] using ha)
        rw [stops_wait hn, List.mem_cons] at hk
        obtain rfl | hk := hk
        · exact ⟨_, _, h.wait hq hn⟩
        · exact ih (q := []) (h.wait hq hn) rfl hk
      | detect | detectNext => cases hk
      | driveLow | release | sample | setBi | clearSh | accumulate | latchBit | latchByte => cases ha

theorem exists_stands_of_stop {S : List Action} {c : Nat} (h : c = 0 ∨ c ∈ stops 0 S) : ∃ o l, Stands S c o l := by
  obtain rfl | h := h
  · exact ⟨_, _, .start⟩
  · exact Stands.of_mem_stops S (q := []) .start rfl h

/-! ### How far a pseudocode goes -/

theorem duration_append (l m : List Action) : duration (l ++ m) = duration l + duration m := by
  induction l with
  | nil => exact (Nat.zero_add _).symm
  | cons a l ih =>
    cases a with
    | wait n => rw [List.cons_append, duration, duration, ih, Nat.add_assoc]
    | _ => exact ih

theorem duration_quiet {q : List Action} (hq : q.all quiet = true) : duration q = 0 := by
  induction q with
  | nil => rfl
  | cons a q ih =>
    obtain ⟨ha, hq⟩ := Bool.and_eq_true_iff.mp (List.all_cons ▸ hq)
    cases a with
    | wait w =>
      obtain rfl : w = 0 := by simpa [quiet] using ha
      rw [duration, ih hq]
    | detect | detectNext => cases ha
    | driveLow | release | sample | setBi | clearSh | accumulate | latchBit | latchByte => exact ih hq

/-- The waits behind and the waits ahead make up the whole. -/
theorem Stands.duration_eq {S l : List Action} {c : Nat} {o : LineOut} (h : Stands S c o l) :
    c + duration l = duration S := by
  induction h with
  | start => exact Nat.zero_add _
  | wait _ hq _ ih =>
    rw [duration_append, duration_quiet hq, duration] at ih
    omega

end Sys2Proof.Machine

namespace Sys2Proof.Machine

/-! ### The detector in a pseudocode -/

/-- The offset at which the detector starts: the sum of the waits before it. -/
def detectStart : List Action → Option Nat
  | [] => none
  | .detect :: _ => some 0
  | .wait n :: l => (detectStart l).map (n + ·)
  | .driveLow :: l => detectStart l
  | .release :: l => detectStart l
  | .sample :: l => detectStart l
  | .setBi _ :: l => detectStart l
  | .clearSh :: l => detectStart l
  | .accumulate _ :: l => detectStart l
  | .latchBit :: l => detectStart l
  | .latchByte :: l => detectStart l
  | .detectNext :: l => detectStart l

theorem detectStart_quiet {q : List Action} (hq : q.all quiet = true) (m : List Action) :
    detectStart (q ++ m) = detectStart m := by
  induction q with
  | nil => rfl
  | cons a q ih =>
    obtain ⟨ha, hq⟩ := Bool.and_eq_true_iff.mp (List.all_cons ▸ hq)
    rw [← ih hq, List.cons_append]
    cases a with
    | wait w =>
      obtain rfl : w = 0 := by simpa [quiet] using ha
      simp [detectStart]
    | detect | detectNext => cases ha
    | driveLow | release | sample | setBi | clearSh | accumulate | latchBit | latchByte => rfl

theorem detectStart_eq_none {l : List Action} (h : .detect ∉ l) : detectStart l = none := by
  induction l with
  | nil => rfl
  | cons a l ih =>
    obtain ⟨ha, hl⟩ := not_or.mp (List.mem_cons.not.mp h)
    cases a with
    | detect => exact absurd rfl ha
    | wait n => rw [detectStart, ih hl, Option.map_none]
    | _ => exact ih hl

theorem Stands.detectStart_eq {S l : List Action} {c : Nat} {o : LineOut} (h : Stands S c o l) :
    detectStart S = (detectStart l).map (c + ·) := by
  induction h with
  | start => simp
  | wait _ hq _ ih =>
    rw [ih, detectStart_quiet hq, detectStart, Option.map_map]
    congr 1
    funext k
    exact (Nat.add_assoc _ _ _).symm

/-- Only PRESENCE and INIT have a detector, at the offsets of 43_init.md R166 and R170. -/
theorem detectStart_script {p : Config.Params} {i : Instr} {here : Nat} (h : detectStart (script p i) = some here) :
    i = .presence ∧ here = 0 ∨ i = .init ∧ here = p.resetPart := by
  by_cases hp : i = .presence
  · subst hp
    exact .inl ⟨rfl, (Option.some.inj h).symm⟩
  by_cases hi : i = .init
  · subst hi
    exact .inr ⟨rfl, (Option.some.inj h).symm⟩
  · rw [detectStart_eq_none (detect_not_mem_script p hp hi)] at h
    cases h

theorem detectStart_presenceScript : detectStart presenceScript = some 0 := rfl

theorem detectStart_initScript (p : Config.Params) : detectStart (initScript p) = some p.resetPart := rfl

/-- After one of its waits the detector goes on. -/
theorem fromOffset_detector {p : Config.Params} {i : Instr} {here c : Nat}
    (h : detectStart (script p i) = some here) (hc : here < c) : fromOffset (script p i) c = [.detectNext] := by
  obtain ⟨rfl, rfl⟩ | ⟨rfl, rfl⟩ := detectStart_script h
  · simp [script, presenceScript, fromOffset, show c ≠ 0 by omega]
  · unfold Config.Params.resetPart at hc
    have h1 : c ≠ 0 := by omega
    have h2 : p.tRstLow ≤ c := by omega
    have h3 : c - p.tRstLow ≠ 0 := by omega
    have h4 : p.tRstWait ≤ c - p.tRstLow := by omega
    have h5 : c - p.tRstLow - p.tRstWait ≠ 0 := by omega
    simp [script, initScript, resetScript, presenceScript, fromOffset, h1, h2, h3, h4, h5]

/-- The line is released while the detector waits. -/
theorem lineAt_detector {p : Config.Params} {i : Instr} {here c : Nat}
    (h : detectStart (script p i) = some here) (hc : here < c) : lineAt (script p i) c .released = .released := by
  obtain ⟨rfl, rfl⟩ | ⟨rfl, rfl⟩ := detectStart_script h
  · simp [script, presenceScript, lineAt]
  · unfold Config.Params.resetPart at hc
    have h1 : c ≠ 0 := by omega
    have h2 : p.tRstLow ≤ c := by omega
    have h3 : c - p.tRstLow ≠ 0 := by omega
    simp [script, initScript, resetScript, presenceScript, lineAt, h1, h2, h3]

/-! ### The offset counter suffices (10_state.md R43) -/

theorem duration_flatMap (f : Nat → List Action) (l : List Nat) :
    duration (l.flatMap f) = (l.map fun k => duration (f k)).sum := by
  induction l with
  | nil => rfl
  | cons k l ih => rw [List.flatMap_cons, duration_append, ih, List.map_cons, List.sum_cons]

theorem duration_writeTurn (p : Config.Params) (d : Byte) (k : Nat) :
    duration (writeTurn p d k) = p.writeSlot (dataBit d k) + p.tWbGap := by
  simp [writeTurn, writeSlot, duration, Config.Params.writeSlot]
  omega

theorem duration_readTurn (p : Config.Params) (k : Nat) : duration (readTurn p k) = readTurnLength p := by
  simp [readTurn, readSlotToSample, duration, readTurnLength]
  omega

theorem duration_readTurns (p : Config.Params) (n : Nat) :
    duration ((List.range n).flatMap (readTurn p)) = n * readTurnLength p := by
  rw [duration_flatMap]
  simp [duration_readTurn]

/-- In a legal set of parameters the waits of every pseudocode add up to at most 65535. -/
theorem duration_script_le {p : Config.Params} (h : p.Legal) (i : Instr) : duration (script p i) ≤ 65535 := by
  have hslot (b : Bool) : 8 * (p.writeSlot b + p.tWbGap) ≤ 65535 := Config.Params.writeSlot_bound h b
  unfold Config.Params.Legal at h
  cases i with
  | delay n => simp only [script, delayScript, duration]; omega
  | writeBit b =>
    have hb := hslot b
    simp only [script, writeBitScript, writeSlot, duration, Config.Params.writeSlot] at hb ⊢
    omega
  | readBit =>
    simp only [script, readBitScript, readSlotToSample, duration, List.cons_append, List.nil_append]
    omega
  | writeByte d =>
    have hturns : (((List.range 8).map fun k => duration (writeTurn p d k))).sum ≤ 8 * (65535 / 8) := by
      refine (List.sum_le_card_nsmul _ (65535 / 8) fun x hx => ?_).trans (by simp)
      obtain ⟨k, -, rfl⟩ := List.mem_map.mp hx
      have hk := hslot (dataBit d k)
      rw [duration_writeTurn]
      omega
    rw [script, writeByteScript, duration_flatMap]
    omega
  | readByte =>
    rw [script, readByteScript, List.cons_append, duration, duration_append, duration_readTurns]
    simp only [duration, readTurnLength]
    omega
  | reset => simp only [script, resetScript, duration]; omega
  | presence => simp only [script, presenceScript, duration]; omega
  | init =>
    simp only [script, initScript, resetScript, presenceScript, duration, List.cons_append, List.nil_append]
    omega
  | decode th tl => simp only [script, duration]; omega

theorem detector_bound {p : Config.Params} (h : p.Legal) {i : Instr} {here : Nat}
    (hd : detectStart (script p i) = some here) : here + p.nPresHigh + p.nPresLow ≤ 65536 := by
  unfold Config.Params.Legal at h
  obtain ⟨rfl, rfl⟩ | ⟨rfl, rfl⟩ := detectStart_script hd
  · omega
  · unfold Config.Params.resetPart
    omega

end Sys2Proof.Machine

namespace Sys2Proof.Machine

/-! ### One turn of the detector (43_init.md R166) -/

theorem State.DetectorAt.lt {s : State} {here : Nat} (h : s.DetectorAt here) : here < s.c.toNat := by
  unfold State.DetectorAt at h
  cases hp : s.ph <;> simp only [hp] at h <;> omega

theorem State.DetectorAt.pk_le {s : State} {here : Nat} (h : s.DetectorAt here) :
    s.pk ≤ max s.params.nPresHigh s.params.nPresLow := by
  unfold State.DetectorAt at h
  cases hp : s.ph <;> simp only [hp] at h <;> omega

theorem toNat_c_succ {c : BitVec 16} (h : c.toNat + 1 < 65536) : (c + 1).toNat = c.toNat + 1 := by
  rw [BitVec.toNat_add]
  exact Nat.mod_eq_of_lt h

/-- A turn of phase A leaves the detector one tick further, in phase A or B. -/
theorem State.detectHigh_detectorAt {s : State} {here : Nat} (env : Bool) (hph : s.ph = .a)
    (hc : s.c.toNat = here + s.pk) (hpk : s.pk < s.params.nPresHigh) (hlow : 1 ≤ s.params.nPresLow)
    (hb : s.c.toNat + 1 < 65536) :
    (s.detectHigh env).DetectorAt here ∧ (s.detectHigh env).c.toNat = s.c.toNat + 1 ∧
      (s.detectHigh env).out = s.out := by
  have hsucc := toNat_c_succ hb
  rw [State.detectHigh_eq]
  cases hlevel : s.level env with
  | true =>
    rw [if_pos rfl]
    refine ⟨?_, hsucc, rfl⟩
    simp only [State.DetectorAt, State.noteSample_params, State.noteSample_ph, hph]
    omega
  | false =>
    rw [if_neg (by simp)]
    refine ⟨?_, hsucc, rfl⟩
    simp only [State.DetectorAt, State.noteSample_params]
    omega

/-- The detector's start leaves it one tick further. -/
theorem State.detectFirst_detectorAt {s : State} (env : Bool) (hhigh : 1 ≤ s.params.nPresHigh)
    (hlow : 1 ≤ s.params.nPresLow) (hb : s.c.toNat + 1 < 65536) :
    (s.detectFirst env).DetectorAt s.c.toNat ∧ (s.detectFirst env).c.toNat = s.c.toNat + 1 ∧
      (s.detectFirst env).out = s.out :=
  State.detectHigh_detectorAt (s := { s with ph := .a, pk := 0 }) env rfl rfl hhigh hlow hb

/-- A turn of phase B completes, or leaves the detector one tick further in phase B. -/
theorem State.detectLow_detectorAt {s : State} {here : Nat} (env : Bool) (hph : s.ph = .b) (h : s.DetectorAt here)
    (hpk : s.pk < s.params.nPresLow) (hb : s.c.toNat + 1 < 65536) :
    (s.detectLow env).fsm = .idle ∧ (s.detectLow env).pk = s.pk ∨
    (s.detectLow env).DetectorAt here ∧ (s.detectLow env).c.toNat = s.c.toNat + 1 ∧
      (s.detectLow env).out = s.out := by
  have hsucc := toNat_c_succ hb
  simp only [State.DetectorAt, hph] at h
  rw [State.detectLow_eq]
  cases hlevel : s.level env with
  | true => exact .inl (by simp)
  | false =>
    rw [if_neg (by simp)]
    refine .inr ⟨?_, hsucc, rfl⟩
    simp only [State.DetectorAt, State.noteSample_params, State.noteSample_ph, hph]
    omega

/-- A tick of the waiting detector completes, or leaves the detector one tick further. -/
theorem State.detectNext_detectorAt {s : State} {here : Nat} (env : Bool) (h : s.DetectorAt here)
    (hlow : 1 ≤ s.params.nPresLow) (hb : here + s.params.nPresHigh + s.params.nPresLow ≤ 65536) :
    (s.detectNext env).fsm = .idle ∧ (s.detectNext env).pk = s.pk ∨
    (s.detectNext env).DetectorAt here ∧ (s.detectNext env).c.toNat = s.c.toNat + 1 ∧
      (s.detectNext env).out = s.out := by
  have hat := h
  unfold State.DetectorAt at hat
  unfold State.detectNext
  cases hph : s.ph with
  | a =>
    simp only [hph] at hat ⊢
    by_cases hpk : s.pk = s.params.nPresHigh
    · exact .inl (by simp [hpk])
    · rw [if_neg hpk]
      exact .inr (State.detectHigh_detectorAt env hph (by omega) (by omega) hlow (by omega))
  | b =>
    simp only [hph] at hat ⊢
    by_cases hpk : s.pk = s.params.nPresLow
    · exact .inl (by simp [hpk])
    · rw [if_neg hpk]
      exact State.detectLow_detectorAt env hph h (by omega) (by omega)

/-! ### One tick of a running operation -/

/-- The operation with the pseudocode S stands where S can be suspended, with the line as S has made it. -/
def State.Standing (s : State) (S : List Action) : Prop :=
  (∃ l, Stands S s.c.toNat s.out l) ∨
    ∃ here, detectStart S = some here ∧ s.DetectorAt here ∧ s.out = .released

theorem effects_out (env : Bool) {q : List Action} (hq : q.all quiet = true) (s : State) :
    (effects env q s).out = lineAt q 1 s.out := by
  induction q generalizing s with
  | nil => rfl
  | cons a q ih =>
    obtain ⟨ha, hq⟩ := Bool.and_eq_true_iff.mp (List.all_cons ▸ hq)
    rw [effects_cons, ih hq]
    cases a with
    | wait w =>
      obtain rfl : w = 0 := by simpa [quiet] using ha
      rfl
    | detect | detectNext => cases ha
    | driveLow | release => simp [effect, lineAt]
    | sample | setBi | clearSh | accumulate | latchBit | latchByte => rfl

theorem lineAt_quiet_detect {q : List Action} (hq : q.all quiet = true) (m : List Action) (o : LineOut) :
    lineAt (q ++ .detect :: m) 1 o = lineAt q 1 o := by
  induction q generalizing o with
  | nil => rfl
  | cons a q ih =>
    obtain ⟨ha, hq⟩ := Bool.and_eq_true_iff.mp (List.all_cons ▸ hq)
    rw [List.cons_append]
    cases a with
    | wait w =>
      obtain rfl : w = 0 := by simpa [quiet] using ha
      exact ih hq o
    | detect | detectNext => cases ha
    | driveLow | release | sample | setBi | clearSh | accumulate | latchBit | latchByte => exact ih hq _

theorem Stands.suffix {S l : List Action} {c : Nat} {o : LineOut} (h : Stands S c o l) : l <:+ S := by
  induction h with
  | start => exact List.suffix_rfl
  | wait _ _ _ ih => exact ((List.suffix_cons _ _).trans (List.suffix_append _ _)).trans ih

/-- The wait of the next segment fits the offset counter. -/
theorem Stands.toNat_add_wait {p : Config.Params} (hl : p.Legal) {i : Instr} {c : BitVec 16} {o : LineOut}
    {q m : List Action} {n : Nat} (h : Stands (script p i) c.toNat o (q ++ .wait n :: m)) :
    (c + BitVec.ofNat 16 n).toNat = c.toNat + n := by
  have hd := h.duration_eq
  have hle := duration_script_le hl i
  rw [duration_append, duration] at hd
  rw [BitVec.toNat_add, BitVec.toNat_ofNat]
  omega

/-- Where the detector is the next to run, the line is released and the detector's start is at hand. -/
theorem Stands.detector {p : Config.Params} {i : Instr} {c : Nat} {o : LineOut} {q m : List Action}
    (h : Stands (script p i) c o (q ++ .detect :: m)) (hq : q.all quiet = true) :
    detectStart (script p i) = some c ∧ lineAt q 1 o = .released := by
  have hstart : detectStart (script p i) = some c := by
    rw [h.detectStart_eq, detectStart_quiet hq]
    rfl
  refine ⟨hstart, ?_⟩
  rw [← lineAt_quiet_detect hq m, ← lineAt_detector hstart (Nat.lt_add_one c), h.lineAt_add 1]
  rfl

/-- The tick at which a standing operation is resumed completes it, or leaves it standing further on. -/
theorem State.resume_standing {s : State} {i : Instr} (hl : s.params.Legal) (ho : s.opr = some i)
    (h : s.Standing (script s.params i)) (env : Bool) :
    ((s.resume env).fsm = .idle ∨
      (s.resume env).Standing (script s.params i) ∧ s.c.toNat < (s.resume env).c.toNat) ∧
    ((s.resume env).pk = s.pk ∨ ∃ here, (s.resume env).DetectorAt here) := by
  have hlow : 2 ≤ s.params.nPresLow ∧ 1 ≤ s.params.nPresHigh := by
    unfold Config.Params.Legal at hl
    omega
  have hscript : s.oprScript = script s.params i := by rw [State.oprScript, ho]
  unfold State.resume
  rw [hscript]
  obtain ⟨l, hst⟩ | ⟨here, hd, hat, hout⟩ := h
  · rw [hst.reached.1]
    obtain ⟨q, m, rfl, hq, hm⟩ := exists_quiet_split l
    have hu := effects_out env hq s
    obtain ⟨hp, -, -, -, -, -, -, -, -, -, -, hc, -, hpk, -⟩ := effects_frame env q s
    rw [runActions_quiet env hq]
    obtain rfl | ⟨n, k, hn, rfl⟩ | ⟨k, rfl⟩ | ⟨k, rfl⟩ := hm
    · exact ⟨.inl rfl, .inl (by rw [runActions, State.complete_pk, hpk])⟩
    · have hcn := hst.toNat_add_wait hl
      rw [runActions, if_neg (by omega)]
      refine ⟨.inr ⟨.inl ⟨k, ?_⟩, ?_⟩, .inl (by simp [hpk])⟩
      · simp only [State.suspend_c, State.suspend_out, hc, hu, hcn]
        exact hst.wait hq hn
      · simp only [State.suspend_c, hc, hcn]
        omega
    · obtain ⟨hd, hout⟩ := hst.detector hq
      have hb := detector_bound hl hd
      obtain ⟨hat, hc', hout'⟩ := State.detectFirst_detectorAt (s := effects env q s) env (by rw [hp]; omega)
        (by rw [hp]; omega) (by rw [hc]; omega)
      rw [hc] at hat hc'
      rw [runActions]
      exact ⟨.inr ⟨.inr ⟨_, hd, hat, hout'.trans (hu.trans hout)⟩, by omega⟩, .inr ⟨_, hat⟩⟩
    · have hmem : .detectNext ∈ script s.params i := hst.suffix.subset (by simp)
      exact absurd hmem (detectNext_not_mem_script _ _)
  · have hb := detector_bound hl hd
    rw [fromOffset_detector hd hat.lt, runActions]
    obtain ⟨hidle, hpk⟩ | ⟨hat', hc', hout'⟩ := State.detectNext_detectorAt env hat (by omega) (by omega)
    · exact ⟨.inl hidle, .inl hpk⟩
    · exact ⟨.inr ⟨.inr ⟨_, hd, hat', hout'.trans hout⟩, by omega⟩, .inr ⟨_, hat'⟩⟩

end Sys2Proof.Machine

namespace Sys2Proof.Machine

/-! ### Moves, once more -/

/-- A tick that ends an operation leaves DONE set and the line released (60_exceptions.md R233). -/
theorem State.tickStep_completed {s : State} (hr : s.fsm = .run) (env : Bool) (hi : (s.tickStep env).fsm = .idle) :
    (s.tickStep env).done = true ∧ (s.tickStep env).out = .released := by
  obtain ht | ht := s.tickStep_cases env
  · simp [ht, hr] at hi
  · rw [ht] at hi ⊢
    obtain ⟨hf, -⟩ | ⟨-, hdone, hout⟩ := s.advanceTime.resume_outcome env
    · simp [hi, hr] at hf
    · exact ⟨hdone, hout⟩

/-- A reset cycle that is not refused is a block reset. -/
theorem rstCycle_next {oa : Option Access} {s t : State} (h : rstCycle oa s = .next t) : t = s.blockReset := by
  unfold rstCycle at h
  split at h
  · cases h
    rfl
  · split at h <;> cases h
    rfl

/-! ### The invariant of a running and of an idle OWC -/

/-- An offset where an operation can be suspended, as the invariant has it, for all commands at once. -/
theorem State.positioned_iff {s : State} {i : Instr} (ho : s.opr = some i) :
    s.Positioned ↔ (∀ th tl, i ≠ .decode th tl) ∧
      ((s.c.toNat = 0 ∨ s.c.toNat ∈ stops 0 (script s.params i)) ∨
        ∃ here, detectStart (script s.params i) = some here ∧ s.DetectorAt here) := by
  have hzero : s.c.toNat = 0 ↔ s.c = 0 := by rw [BitVec.toNat_eq]; rfl
  have hplain (hp : i ≠ .presence) (hi : i ≠ .init) : detectStart (script s.params i) = none :=
    detectStart_eq_none (detect_not_mem_script _ hp hi)
  rw [hzero]
  unfold State.Positioned
  rw [ho]
  cases i with
  | presence => simp [script, detectStart_presenceScript, show stops 0 presenceScript = [] from rfl]
  | init => simp [script, detectStart_initScript, or_assoc]
  | decode th tl => simp
  | delay | writeBit | readBit | writeByte | readByte | reset => simp [hplain]

theorem State.oprScript_eq {s : State} {i : Instr} (ho : s.opr = some i) : s.oprScript = script s.params i := by
  rw [State.oprScript, ho]

/-- An operation of the invariant stands in its pseudocode. -/
theorem State.Inv.standing {s : State} (h : s.Inv) (hr : s.fsm = .run) :
    ∃ i, s.opr = some i ∧ (∀ th tl, i ≠ .decode th tl) ∧ s.Standing (script s.params i) := by
  have hpos := h.positioned hr
  have hline := h.line hr
  cases ho : s.opr with
  | none => simp [State.Positioned, ho] at hpos
  | some i =>
    rw [State.oprScript_eq ho] at hline
    obtain ⟨hnd, hstop | ⟨here, hd, hat⟩⟩ := (State.positioned_iff ho).mp hpos
    · obtain ⟨o, l, hst⟩ := exists_stands_of_stop hstop
      obtain rfl : s.out = o := hline.trans hst.lineAt_eq
      exact ⟨i, rfl, hnd, .inl ⟨l, hst⟩⟩
    · exact ⟨i, rfl, hnd, .inr ⟨here, hd, hat, hline.trans (lineAt_detector hd hat.lt)⟩⟩

/-- An operation that stands in its pseudocode is where the invariant wants it, and so is the line. -/
theorem State.Standing.positioned {s : State} {i : Instr} (ho : s.opr = some i) (hnd : ∀ th tl, i ≠ .decode th tl)
    (h : s.Standing (script s.params i)) : s.Positioned ∧ s.out = lineAt s.oprScript s.c.toNat .released := by
  rw [State.positioned_iff ho, State.oprScript_eq ho]
  obtain ⟨l, hst⟩ | ⟨here, hd, hat, hout⟩ := h
  · exact ⟨⟨hnd, .inl hst.eq_zero_or_mem_stops⟩, hst.lineAt_eq.symm⟩
  · exact ⟨⟨hnd, .inr ⟨here, hd, hat⟩⟩, hout.trans (lineAt_detector hd hat.lt).symm⟩

/-- The invariant of a state that has completed whatever it was given. -/
theorem State.Inv.of_idle {s : State} (hl : s.params.Legal) (hi : s.fsm = .idle) (ho : s.out = .released)
    (he : s.done = false → s.err = .none) (hpk : s.pk ≤ max s.params.nPresHigh s.params.nPresLow)
    (hdiv : s.div < s.params.tickDiv) : s.Inv where
  legal := hl
  idle_released _ := ho
  run_flags hr := by simp [hi] at hr
  err_done := he
  positioned hr := by simp [hi] at hr
  line hr := by simp [hi] at hr
  ahead hr := by simp [hi] at hr
  present_cleared hr := by simp [hi] at hr
  pk_bound := hpk
  div_bound := hdiv

/-- The invariant of a state in which the operation i runs. -/
theorem State.Inv.of_run {s : State} {i : Instr} (hl : s.params.Legal) (hr : s.fsm = .run)
    (hflags : s.done = false ∧ s.err = .none) (ho : s.opr = some i) (hnd : ∀ th tl, i ≠ .decode th tl)
    (hst : s.Standing (script s.params i)) (hahead : 0 < s.untilResume ∧ s.untilResume ≤ s.c.toNat + 1)
    (hp : clearsPresent i = true → s.present = false) (hpk : s.pk ≤ max s.params.nPresHigh s.params.nPresLow)
    (hdiv : s.div < s.params.tickDiv) : s.Inv where
  legal := hl
  idle_released hi := by simp [hr] at hi
  run_flags _ := hflags
  err_done _ := hflags.2
  positioned _ := (hst.positioned ho hnd).1
  line _ := (hst.positioned ho hnd).2
  ahead _ := hahead
  present_cleared _ j hj := by
    obtain rfl : i = j := Option.some.inj (ho.symm.trans hj)
    exact hp
  pk_bound := hpk
  div_bound := hdiv

/-- What no tick looks at is no part of the invariant. -/
theorem State.Inv.unseen {s : State} (h : s.Inv) (o g : Bool) (r : Word) (l : List Input) (n : Nat) :
    (s.unseen o g r l n).Inv :=
  ⟨h.legal, h.idle_released, h.run_flags, h.err_done, h.positioned, h.line, h.ahead, h.present_cleared, h.pk_bound,
    h.div_bound⟩

/-! ### Ticks keep the invariant -/

/-- A waiting tick brings the resumption a tick nearer. -/
theorem State.untilResume_advanceTime {s : State} (h : 0 < s.untilResume) :
    s.advanceTime.untilResume + 1 = s.untilResume := by
  unfold State.untilResume at h ⊢
  rw [State.advanceTime, State.setTime_resumeAt, State.setTime_time]
  bv_omega

/-- The next tick resumes the operation exactly when the resumption is one tick ahead. -/
theorem State.untilResume_eq_one_iff (s : State) : s.untilResume = 1 ↔ s.time + 1 = s.resumeAt := by
  unfold State.untilResume
  constructor <;> intro h <;> bv_omega

/-- A resumed operation that moved its offset on is due after as many ticks. -/
theorem State.untilResume_resume {s : State} (ht : s.time = s.resumeAt) (env : Bool)
    (hc : s.c.toNat < (s.resume env).c.toNat) :
    (s.resume env).untilResume + s.c.toNat = (s.resume env).c.toNat := by
  obtain ⟨-, -, -, htime, -, -, hstart, -⟩ := runActions_frame env (fromOffset s.oprScript s.c.toNat) s
  unfold State.untilResume State.resumeAt
  rw [State.resumeAt] at ht
  rw [show (s.resume env).time = s.time from htime, show (s.resume env).start = s.start from hstart, ht]
  generalize (s.resume env).c = c' at hc ⊢
  generalize s.c = c at hc ⊢
  generalize s.start = a
  bv_omega

/-- What is left of a running operation at most: the ticks to its resumption, and the rest of the offset counter. -/
def State.ticksLeft (s : State) : Nat := s.untilResume + (65535 - s.c.toNat)

/-- A tick step from the invariant completes the operation, or keeps the invariant with one tick less to go. -/
theorem State.Inv.tickStep_run {s : State} (h : s.Inv) (hr : s.fsm = .run) (env : Bool) :
    (s.tickStep env).Inv ∧ ((s.tickStep env).fsm = .run → (s.tickStep env).ticksLeft + 1 = s.ticksLeft) := by
  obtain ⟨i, ho, hnd, hst⟩ := h.standing hr
  have hp := h.present_cleared hr i ho
  obtain ⟨hpos, hle⟩ := h.ahead hr
  by_cases hone : s.untilResume = 1
  · have ht := (State.untilResume_eq_one_iff s).mp hone
    rw [State.tickStep_resume hr ht]
    have ht' : s.advanceTime.time = s.advanceTime.resumeAt := ht
    obtain ⟨hstands, hpk⟩ := State.resume_standing (s := s.advanceTime) h.legal ho hst env
    have hlegal : (s.advanceTime.resume env).params.Legal := by simpa using h.legal
    have hdivb : (s.advanceTime.resume env).div < (s.advanceTime.resume env).params.tickDiv := by
      simpa using h.div_bound
    have hpkb : (s.advanceTime.resume env).pk ≤
        max (s.advanceTime.resume env).params.nPresHigh (s.advanceTime.resume env).params.nPresLow := by
      obtain hpk | ⟨here, hat⟩ := hpk
      · simpa [hpk] using h.pk_bound
      · exact hat.pk_le
    obtain ⟨hf, hdone, herr, hpres⟩ | ⟨hidle, hdone, hout⟩ := s.advanceTime.resume_outcome env
    · have hrun : (s.advanceTime.resume env).fsm = .run := hf.trans hr
      obtain ⟨hst', hc⟩ := hstands.resolve_left (by simp [hrun])
      have huntil := State.untilResume_resume ht' env hc
      have hc16 := (s.advanceTime.resume env).c.isLt
      rw [State.advanceTime_c] at hc huntil
      refine ⟨.of_run hlegal hrun ?_ (by simpa using ho) hnd (by simpa using hst') (by omega)
        (fun hi => hpres.trans (hp hi)) hpkb hdivb, fun _ => ?_⟩
      · exact ⟨hdone.trans (h.run_flags hr).1, herr.trans (h.run_flags hr).2⟩
      · unfold State.ticksLeft
        omega
    · exact ⟨.of_idle hlegal hidle hout (by simp [hdone]) hpkb hdivb, by simp [hidle]⟩
  · have hwait := State.untilResume_advanceTime hpos
    rw [State.tickStep_waiting fun ht => hone ((State.untilResume_eq_one_iff s).mpr ht.2)]
    refine ⟨.of_run h.legal hr (h.run_flags hr) ho hnd hst ?_ hp h.pk_bound h.div_bound, fun _ => ?_⟩
    · rw [State.advanceTime_c]
      omega
    · unfold State.ticksLeft
      rw [State.advanceTime_c]
      omega

/-- A tick step keeps the invariant. -/
theorem State.Inv.tickStep {s : State} (h : s.Inv) (env : Bool) : (s.tickStep env).Inv := by
  cases hf : s.fsm with
  | run => exact (h.tickStep_run hf env).1
  | idle =>
    rw [State.tickStep_idle hf]
    exact .of_idle h.legal hf (h.idle_released hf) h.err_done h.pk_bound h.div_bound

/-- DIV, within its bounds, is no other part of the invariant. -/
theorem State.Inv.withDiv {s : State} (h : s.Inv) {d : Nat} (hd : d < s.params.tickDiv) : { s with div := d }.Inv :=
  ⟨h.legal, h.idle_released, h.run_flags, h.err_done, h.positioned, h.line, h.ahead, h.present_cleared, h.pk_bound, hd⟩

theorem State.Inv.tick {s : State} (h : s.Inv) (env : Bool) : (s.tick env).Inv :=
  (h.withDiv (Config.Params.tickDiv_pos _)).tickStep env

theorem State.Inv.clkCycle {s : State} (h : s.Inv) (env : Bool) : (s.clkCycle env).Inv := by
  obtain hlt | hwrap := Nat.lt_or_ge (s.div + 1) s.params.tickDiv
  · rw [State.clkCycle_of_lt env hlt]
    exact h.withDiv hlt
  · rw [State.clkCycle_of_wrap env hwrap]
    exact h.tick env

/-! ### Acceptance keeps the invariant -/

/-- A command that is started, with PRESENT cleared where it looks for presence anew. -/
theorem State.Inv.begin {s : State} (h : s.Inv) (hi : s.fsm = .idle) {i : Instr} (hnd : ∀ th tl, i ≠ .decode th tl)
    (hflags : s.done = false ∧ s.err = .none) (hp : clearsPresent i = true → s.present = false) : (s.begin i).Inv := by
  have hst : (s.begin i).Standing (script s.params i) := by
    refine .inl ⟨script s.params i, ?_⟩
    rw [State.begin_out, h.idle_released hi]
    exact .start
  have huntil : (s.begin i).untilResume = 1 := (State.untilResume_eq_one_iff _).mpr (by simp [State.resumeAt])
  exact .of_run h.legal rfl hflags rfl hnd hst (by omega) hp h.pk_bound h.div_bound

/-- A command that completes at acceptance. -/
theorem State.Inv.finish {s : State} (h : s.Inv) (hi : s.fsm = .idle) (e : ErrCode) : (s.finish e).Inv :=
  .of_idle h.legal hi (h.idle_released hi) (by simp) h.pk_bound h.div_bound

/-- No bus data command looks for presence anew. -/
theorem clearsPresent_of_isBusData {i : Instr} (h : isBusData i = true) : clearsPresent i = false := by
  cases i with
  | writeBit | readBit | writeByte | readByte => rfl
  | delay | reset | presence | init | decode => cases h

/-- Every command accepted from an idle state of the invariant leads to one. -/
theorem State.Inv.accept {s : State} (h : s.Inv) (hi : s.fsm = .idle) (hflags : s.done = false ∧ s.err = .none)
    (i : Instr) : (s.accept i).Inv := by
  have hclear : s.clearPresent.Inv := .of_idle h.legal hi (h.idle_released hi) h.err_done h.pk_bound h.div_bound
  have gated (j : Instr) (hb : isBusData j = true) (hj : s.accept j = s.gated (·.begin j)) : (s.accept j).Inv := by
    rw [hj]
    obtain hg | hg := s.gated_begin_cases j <;> rw [hg]
    · exact h.finish hi _
    · exact h.begin hi (by rintro th tl rfl; cases hb) hflags (by simp [clearsPresent_of_isBusData hb])
  cases i with
  | delay n =>
    by_cases hn : n = 0
    · rw [State.accept, if_pos hn]
      exact h.finish hi _
    · rw [State.accept, if_neg hn]
      exact h.begin hi nofun hflags nofun
  | writeBit b => exact gated _ rfl rfl
  | readBit => exact gated _ rfl rfl
  | writeByte d => exact gated _ rfl rfl
  | readByte => exact gated _ rfl rfl
  | reset => exact hclear.begin hi nofun hflags fun _ => rfl
  | presence => exact hclear.begin hi nofun hflags fun _ => rfl
  | init => exact hclear.begin hi nofun hflags fun _ => rfl
  | decode th tl =>
    exact State.Inv.finish (s := { s with temp := decodeTemp th tl })
      (.of_idle h.legal hi (h.idle_released hi) h.err_done h.pk_bound h.div_bound) hi _

/-- A write to CMD, accepted or dropped, keeps the invariant. -/
theorem State.Inv.issue {s : State} (h : s.Inv) (w : Word) : (s.issue (·.acceptWord w)).Inv := by
  cases hf : s.fsm with
  | run =>
    rw [State.issue_busy (State.busy_eq_true.mpr hf)]
    exact h.unseen true s.gate s.rdata s.inputs s.draws
  | idle =>
    have hclear : s.clearFlags.Inv :=
      .of_idle h.legal hf (h.idle_released hf) (fun _ => rfl) h.pk_bound h.div_bound
    rw [State.issue_idle (State.busy_eq_false.mpr hf)]
    cases hw : decode w with
    | ok i =>
      rw [State.acceptWord_ok hw]
      exact hclear.accept hf ⟨rfl, rfl⟩ i
    | error e =>
      rw [State.acceptWord_error hw]
      exact hclear.finish hf _

/-! ### Every move keeps the invariant -/

theorem State.Inv.blockReset {s : State} (h : s.Inv) : s.blockReset.Inv :=
  .of_idle h.legal rfl rfl (fun _ => rfl) (Nat.zero_le _) (Config.Params.tickDiv_pos _)

theorem State.Inv.perform {s t : State} (h : s.Inv) {m : Input} (hm : perform m s = .next t) : t.Inv := by
  cases m with
  | tick e =>
    cases hm
    exact h.tick e
  | clk e =>
    cases hm
    exact h.clkCycle e
  | access a =>
    obtain ⟨r, -, rfl⟩ | ⟨w, -, rfl⟩ | ⟨v, -, rfl⟩ | ⟨r, v, -, -, -, rfl⟩ := access_cases hm
    · exact h.unseen s.ovr s.gate (s.regRead r) s.inputs s.draws
    · exact h.issue w
    · exact h.unseen s.ovr (v.getLsbD 0) s.rdata s.inputs s.draws
    · exact h
  | rst oa =>
    rw [rstCycle_next hm]
    exact h.blockReset

/-- Settles O44: each move of the surroundings keeps the invariant, and so does a free tick. -/
theorem stepKeepsInvariant : Obligations.StepKeepsInvariant := by
  intro s t h hstep
  obtain ⟨-, rfl⟩ | ⟨m, rest, -, hm⟩ := step_cases hstep
  · exact (h.unseen s.ovr s.gate s.rdata s.inputs (s.draws + 1)).tick _
  · exact (h.unseen s.ovr s.gate s.rdata rest s.draws).perform hm

theorem default_legal : Config.Params.default.Legal := by decide

/-- Settles O45: the reset state is idle and released, with every counter at 0. -/
theorem resetMeetsInvariant : Obligations.ResetMeetsInvariant :=
  .of_idle default_legal rfl rfl (fun _ => rfl) (Nat.zero_le _) (Config.Params.tickDiv_pos _)

/-! ### Every operation completes (40_timing.md R108) -/

/-- A running operation completes within the ticks left to it. -/
theorem State.Inv.completes {s : State} (es : List Bool) (h : s.Inv) (hr : s.fsm = .run)
    (hlen : s.ticksLeft ≤ es.length) :
    ∃ k, k ≤ es.length ∧ (s.ticks (es.take k)).fsm = .idle ∧ (s.ticks (es.take k)).done = true := by
  induction es generalizing s with
  | nil =>
    have hpos := (h.ahead hr).1
    unfold State.ticksLeft at hlen
    rw [List.length_nil] at hlen
    omega
  | cons e es ih =>
    obtain ⟨hinv, hleft⟩ := h.tickStep_run hr e
    cases hf : (s.tickStep e).fsm with
    | idle => exact ⟨1, by simp, hf, (State.tickStep_completed hr e hf).1⟩
    | run =>
      have hlen' := hleft hf
      rw [List.length_cons] at hlen
      obtain ⟨k, hk, hidle, hdone⟩ := ih hinv hf (by omega)
      exact ⟨k + 1, by simpa using hk, hidle, hdone⟩

/-- Settles O46: a tick takes one from the ticks left, which the invariant bounds by C + 1 and the rest of C's range. -/
theorem everyOperationCompletes : Obligations.EveryOperationCompletes := by
  intro s es h hr hlen
  have hahead := (h.ahead hr).2
  have hc := s.c.isLt
  exact h.completes es hr (by unfold State.ticksLeft; omega)

end Sys2Proof.Machine

namespace Sys2Proof.Machine

/-! ### Acceptance, command by command (40_timing.md R102) -/

theorem State.accept_busData_open {i : Instr} {a : State} (hi : isBusData i = true) (h : a.gateOpen = true) :
    a.accept i = a.begin i := by
  cases i with
  | writeBit | readBit | writeByte | readByte => exact State.gated_open h _
  | delay | reset | presence | init | decode => cases hi

theorem State.accept_clearsPresent {i : Instr} (hi : clearsPresent i = true) (a : State) :
    a.accept i = a.clearPresent.begin i := by
  cases i with
  | reset | presence | init => rfl
  | delay | writeBit | readBit | writeByte | readByte | decode => cases hi

/-- Settles O30: an idle OWC accepts, and an open gate starts the command. -/
theorem busDataCommandsStart : Obligations.BusDataCommandsStart := by
  intro s i hi h hopen
  have hgate : s.clearFlags.gateOpen = true := State.gateOpen_eq_true.mpr hopen
  rw [exec_idle h, State.accept_busData_open hi hgate]
  rfl

/-- Settles O31: an idle OWC accepts, and these three start with PRESENT cleared. -/
theorem initializationCommandsStart : Obligations.InitializationCommandsStart := by
  intro s i hi h
  rw [exec_idle h, State.accept_clearsPresent hi]
  rfl

/-- Settles O32: an idle OWC accepts, and N decides. -/
theorem delayStartsOrCompletes : Obligations.DelayStartsOrCompletes := by
  refine fun s n h => ⟨fun hn => ?_, fun hn => ?_⟩
  · rw [exec_idle h, State.accept, if_pos hn]
    rfl
  · rw [exec_idle h, State.accept, if_neg hn]
    rfl

/-- Settles O33: an idle OWC accepts, and DECODE is done at once. -/
theorem decodeCompletesAtOnce : Obligations.DecodeCompletesAtOnce := fun _ th tl h => exec_idle h (.decode th tl)

/-! ### What acceptance leaves alone -/

/-- Only the commands that look for presence anew write PRESENT. -/
theorem State.accept_present {i : Instr} (hi : clearsPresent i = false) (a : State) :
    (a.accept i).present = a.present := by
  cases hb : isBusData i with
  | true =>
    cases hg : a.gateOpen with
    | true => rw [State.accept_busData_open hb hg, State.begin_present]
    | false => rw [State.accept_shut hb hg, State.finish_present]
  | false =>
    cases i with
    | delay n =>
      rw [State.accept]
      split <;> rfl
    | decode th tl => rfl
    | writeBit | readBit | writeByte | readByte => cases hb
    | reset | presence | init => cases hi

/-- Only DECODE writes TEMP. -/
theorem State.accept_temp {i : Instr} (hi : ∀ th tl, i ≠ .decode th tl) (a : State) :
    (a.accept i).temp = a.temp := by
  obtain ⟨e, h⟩ | h | h | ⟨th, tl, rfl, -⟩ := a.accept_cases i
  · rw [h, State.finish_temp]
  · rw [h, State.begin_temp]
  · rw [h, State.begin_temp, State.clearPresent_temp]
  · exact absurd rfl (hi th tl)

/-- What acceptance writes: the flags, PRESENT, TEMP, OPR, S, C and FSM; all else stays. -/
def SameBesidesAcceptance (s t : State) : Prop :=
  t.params = s.params ∧ t.gate = s.gate ∧ t.rxdata = s.rxdata ∧ t.time = s.time ∧ t.out = s.out ∧ t.sh = s.sh ∧
    t.bi = s.bi ∧ t.ph = s.ph ∧ t.pk = s.pk ∧ t.div = s.div ∧ t.bit = s.bit ∧ t.rdata = s.rdata ∧
    t.history = s.history ∧ t.inputs = s.inputs ∧ t.draws = s.draws

theorem State.accept_frame (i : Instr) (a : State) : SameBesidesAcceptance a (a.accept i) := by
  obtain ⟨e, h⟩ | h | h | ⟨th, tl, -, h⟩ := a.accept_cases i <;> simp [SameBesidesAcceptance, h]

theorem State.acceptWord_frame (w : Word) (a : State) : SameBesidesAcceptance a (a.acceptWord w) := by
  cases hw : decode w with
  | ok i =>
    rw [State.acceptWord_ok hw]
    exact a.accept_frame i
  | error e => simp [SameBesidesAcceptance, State.acceptWord_error hw]

/-- A write to CMD, dropped or accepted. -/
theorem State.issue_frame {body : State → State} (h : ∀ a, SameBesidesAcceptance a (body a)) (s : State) :
    SameBesidesAcceptance s (s.issue body) := by
  cases hb : s.busy with
  | true => simp [SameBesidesAcceptance, State.issue_busy hb]
  | false =>
    rw [State.issue_idle hb]
    exact h s.clearFlags

/-- Settles O34: a drop writes OVR alone, and acceptance only what its cases do. -/
theorem acceptanceFrame : Obligations.AcceptanceFrame := by
  intro i s t h
  rw [exec_eq_issue] at h
  cases h
  obtain ⟨hparams, hgate, hrx, htime, hout, hsh, hbi, hph, hpk, hdiv, hbit, hrdata, hhist, hinputs, hdraws⟩ :=
    State.issue_frame (State.accept_frame i) s
  refine ⟨hparams, hgate, hrx, htime, hout, hsh, hbi, hph, hpk, hdiv, hbit, hrdata, hhist, hinputs, hdraws, ?_⟩
  cases hb : s.busy with
  | true =>
    rw [State.issue_busy hb]
    exact ⟨fun _ => rfl, fun _ => rfl⟩
  | false =>
    rw [State.issue_idle hb]
    exact ⟨fun hi => State.accept_present hi s.clearFlags, fun hi => State.accept_temp hi s.clearFlags⟩

/-! ### Registers and their reads -/

/-- Settles O12: CTRL and RXDATA are extended by zeros, and the other values are whole words. -/
theorem registerReads : Obligations.RegisterReads := by
  refine fun s => ⟨rfl, rfl, rfl, fun k => ?_, fun k => ?_, rfl, rfl⟩
  · rw [State.regRead, State.ctrl, BitVec.getLsbD_setWidth, BitVec.getLsbD_ofBool]
    by_cases hk : k = 0 <;> simp [hk]
  · rw [State.regRead, BitVec.getLsbD_setWidth]
    by_cases hk : k < 8
    · simp [hk, show k < 32 by omega]
    · simp [hk, BitVec.getLsbD_of_ge s.rxdata k (by omega)]

/-- The code of ERR stands above the four flags of STATUS (10_state.md R27, R28). -/
theorem State.status_div (s : State) : s.status.toNat / 16 = s.err.code.toNat := by
  have above : ∀ (o p d b : Bool) (e : ErrCode),
      ((e.code ++ BitVec.ofBool o ++ BitVec.ofBool p ++ BitVec.ofBool d ++ BitVec.ofBool b).setWidth 32).toNat / 16 =
        e.code.toNat := by
    intro o p d b e
    revert o p d b
    cases e <;> decide
  exact above s.ovr s.present s.done s.busy s.err

/-- Settles O13: STATUS is its code above the four flags. -/
theorem statusBits : Obligations.StatusBits := by
  intro s
  refine ⟨?_, ?_, ?_, s.status_bit_ovr, ?_⟩
  · rw [← State.busy_eq_true, State.regRead, State.status, BitVec.getLsbD_setWidth, BitVec.getLsbD_append]
    simp
  · simp only [State.regRead, State.status, BitVec.getLsbD_setWidth, BitVec.getLsbD_append]
    simp
  · simp only [State.regRead, State.status, BitVec.getLsbD_setWidth, BitVec.getLsbD_append]
    simp
  · rw [State.regRead, State.status_div]
    cases s.err <;> rfl

/-- Settles O14: the access is a read, which `access` answers on `bus_rdata`. -/
theorem readsChangeNothing : Obligations.ReadsChangeNothing := by
  intro s r rest hl hi
  rw [step_cons hl hi, perform, access_read]
  cases r <;> rfl

/-- Settles O15: CTRL takes bit 0, and the other registers ignore the word. -/
theorem writesOutsideCmd : Obligations.WritesOutsideCmd := by
  refine fun s v rest hl => ⟨step_ctrl hl, fun r hcmd hctrl hi => ?_⟩
  rw [step_write hl hi, regWrite_ignored hcmd hctrl]

/-- Settles O10: an offset of 32 or more is one of the three ways out of the interface. -/
theorem accessBeyondTheWindowIsRefused : Obligations.AccessBeyondTheWindowIsRefused := by
  intro s a rest hl hoff hi
  exact step_access_refused hl hi (a.admissible_eq_false_iff.mpr (.inr (.inr hoff)))

/-- Settles O23: a reset cycle is a block reset, which takes from the state before it only what is not the OWC's. -/
theorem resetCycleHasPriority : Obligations.ResetCycleHasPriority := by
  intro s oa rest hl hi hadm
  rw [step_cons hl hi, perform, rstCycle_admissible hadm]
  rfl

/-- Settles O24: the move at the head is the write, and its word decodes to the command. -/
theorem stepRunsTheDecodedCommand : Obligations.StepRunsTheDecodedCommand := by
  have run {s : State} {w : Word} {i : Instr} {rest : List Input} (hl : s.params.Legal)
      (hi : s.inputs = .access (.write .cmd w) :: rest) (hw : decode w = .ok i) :
      step s = exec i { s with inputs := rest } := by
    rw [step_write hl hi, regWrite, command_ok hw]
  refine ⟨fun s w i rest hl hi hw => run hl hi hw, fun s nbits w i hl hw => ?_⟩
  exact run (s := s.withFetchWord nbits w) hl rfl (decodeTableWord_eq_some hw).2

/-! ### The schedule of moves -/

/-- A tick step does not look at the moves to come. -/
theorem State.tickStep_withInputs (s : State) (e : Bool) (l : List Input) :
    State.tickStep e { s with inputs := l } = { s.tickStep e with inputs := l } := by
  calc State.tickStep e { s with inputs := l }
    _ = (s.tickStep e).unseen s.ovr s.gate s.rdata l s.draws := State.tickStep_unseen e s _ _ _ _ _
    _ = (s.tickStep e).unseen (s.tickStep e).ovr (s.tickStep e).gate (s.tickStep e).rdata l (s.tickStep e).draws := by
      simp only [State.tickStep_ovr, State.tickStep_gate, State.tickStep_rdata, State.tickStep_draws]
    _ = { s.tickStep e with inputs := l } := rfl

theorem core_run_succ {M : Host.Core} {s t : M.State} (h : M.step s = .next t) (k : Nat) :
    M.run (k + 1) s = M.run k t := by
  rw [Host.Core.run, h]

/-- A schedule of tick moves is run by tick steps, one a step. -/
theorem core_run_ticks (es : List Bool) (rest : List Input) {s : State} (hl : s.params.Legal) (hd : s.div = 0)
    (hi : s.inputs = es.map .tick ++ rest) :
    Host.Core.run Sys2Proof.core es.length s = .next (State.ticks es { s with inputs := rest }) := by
  induction es generalizing s with
  | nil =>
    rw [List.map_nil, List.nil_append] at hi
    rw [← hi]
    rfl
  | cons e es ih =>
    have hdiv : { s with inputs := es.map Input.tick ++ rest, div := 0 } = { s with inputs := es.map Input.tick ++ rest } := by
      rw [← hd]
    have hstep : step s = .next (State.tickStep e { s with inputs := es.map Input.tick ++ rest }) := by
      rw [← hdiv]
      exact step_cons hl hi
    rw [List.length_cons, core_run_succ (M := Sys2Proof.core) hstep, ih (by simpa using hl) (by simpa using hd) (by simp), State.ticks_cons,
      ← State.tickStep_withInputs]

/-- Settles O18: the head of the schedule is performed, and a run of ticks is one step after another. -/
theorem stepTakesTheNextMove : Obligations.StepTakesTheNextMove := by
  refine ⟨fun s e rest hl => ⟨step_cons hl, step_cons hl, fun hi => ?_⟩, fun s es rest => core_run_ticks es rest⟩
  exact (step_legal hl).trans (advance_nil hi)

/-- Settles O16: each constraint is a part of the legality that a step demands. -/
theorem illegalParametersAreRefused : Obligations.IllegalParametersAreRefused := by
  refine ⟨rfl, default_legal, fun s => step_illegal, fun s h => ?_⟩
  have hl : s.params.Legal := by
    by_contra hl
    exact h (step_illegal hl)
  have hpos := s.params.tickDiv_pos
  have hclk := s.params.tickDiv_ge
  simp only [Config.Params.Legal, Config.Params.writeSlot, Config.Params.writeShape] at hl
  simp only [if_true, Bool.false_eq_true, if_false] at hl
  omega

end Sys2Proof.Machine

namespace Sys2Proof.Machine

/-! ### Everything a step can do -/

/-- A step takes a tick, moves the clock and the read port alone, writes CTRL or CMD, or resets the block. -/
theorem step_outcome {s t : State} (h : step s = .next t) :
    (∃ e d l n, t = State.tickStep e { s with div := d, inputs := l, draws := n }) ∨
    (∃ d r l, t = { s with div := d, rdata := r, inputs := l }) ∨
    (∃ v l, s.inputs = .access (.write .ctrl v) :: l ∧ t = { s with gate := v.getLsbD 0, inputs := l }) ∨
    (∃ w l, s.inputs = .access (.write .cmd w) :: l ∧ t = State.issue (·.acceptWord w) { s with inputs := l }) ∨
    (∃ a l, s.inputs = .rst a :: l ∧ t = State.blockReset { s with inputs := l }) := by
  obtain ⟨-, rfl⟩ | ⟨m, rest, hi, hm⟩ := step_cases h
  · exact .inl ⟨_, 0, s.inputs, s.draws + 1, rfl⟩
  cases m with
  | tick e =>
    cases hm
    exact .inl ⟨e, 0, rest, s.draws, rfl⟩
  | clk e =>
    cases hm
    obtain hlt | hwrap := Nat.lt_or_ge (s.div + 1) s.params.tickDiv
    · exact .inr (.inl ⟨_, s.rdata, rest, State.clkCycle_of_lt (s := { s with inputs := rest }) e hlt⟩)
    · exact .inl ⟨e, 0, rest, s.draws, State.clkCycle_of_wrap (s := { s with inputs := rest }) e hwrap⟩
  | access a =>
    obtain ⟨r, -, rfl⟩ | ⟨w, rfl, rfl⟩ | ⟨v, rfl, rfl⟩ | ⟨r, v, -, -, -, rfl⟩ := access_cases hm
    · exact .inr (.inl ⟨s.div, _, rest, rfl⟩)
    · exact .inr (.inr (.inr (.inl ⟨w, rest, hi, rfl⟩)))
    · exact .inr (.inr (.inl ⟨v, rest, hi, rfl⟩))
    · exact .inr (.inl ⟨s.div, s.rdata, rest, rfl⟩)
  | rst oa => exact .inr (.inr (.inr (.inr ⟨oa, rest, hi, rstCycle_next hm⟩)))

/-- A write to CMD is dropped while busy, and else accepted. -/
theorem State.issue_acceptWord_cases (w : Word) (s : State) :
    s.fsm = .run ∧ s.issue (·.acceptWord w) = s.drop ∨
    s.fsm = .idle ∧ (∃ i, decode w = .ok i ∧ s.issue (·.acceptWord w) = s.clearFlags.accept i) ∨
    s.fsm = .idle ∧ s.issue (·.acceptWord w) = s.clearFlags.finish .illegal := by
  cases hf : s.fsm with
  | run => exact .inl ⟨rfl, State.issue_busy (State.busy_eq_true.mpr hf) _⟩
  | idle =>
    rw [State.issue_idle (State.busy_eq_false.mpr hf)]
    cases hw : decode w with
    | ok i => exact .inr (.inl ⟨rfl, i, rfl, State.acceptWord_ok hw _⟩)
    | error e => exact .inr (.inr ⟨rfl, State.acceptWord_error hw _⟩)

/-! ### What a resumption can write -/

/-- The detector's start takes a sample and waits a tick. -/
theorem State.detectFirst_cases (env : Bool) (s : State) :
    ∃ ph pk, s.detectFirst env = { s.noteSample env with ph := ph, pk := pk, c := s.c + 1 } := by
  rw [State.detectFirst, State.detectHigh_eq]
  split
  · exact ⟨_, _, rfl⟩
  · exact ⟨_, _, rfl⟩

/-- A later turn of the detector fails at a bound, succeeds, or takes a sample and waits a tick. -/
theorem State.detectNext_cases (env : Bool) (s : State) :
    (∃ e, (e = .nopresHigh ∨ e = .nopresLow) ∧ s.detectNext env = s.complete e) ∨
    s.detectNext env = { s.noteSample env with present := true }.complete .none ∨
    ∃ ph pk, s.detectNext env = { s.noteSample env with ph := ph, pk := pk, c := s.c + 1 } := by
  unfold State.detectNext
  split
  · split
    · exact .inl ⟨_, .inl rfl, rfl⟩
    · rw [State.detectHigh_eq]
      split
      · exact .inr (.inr ⟨_, _, rfl⟩)
      · exact .inr (.inr ⟨_, _, rfl⟩)
  · split
    · exact .inl ⟨_, .inr rfl, rfl⟩
    · rw [State.detectLow_eq]
      split
      · exact .inr (.inl rfl)
      · exact .inr (.inr ⟨_, _, rfl⟩)

/-- Running actions suspends with the flags as they were, or completes: without an error and with PRESENT as it was, or
as the detector decides (60_exceptions.md R233, R239). -/
theorem runActions_flags (env : Bool) (l : List Action) (s : State) :
    ((runActions env l s).fsm = s.fsm ∧ (runActions env l s).present = s.present) ∨
    (runActions env l s).fsm = .idle ∧ (runActions env l s).done = true ∧
      ((runActions env l s).present = s.present ∧ (runActions env l s).err = .none ∨
        .detectNext ∈ l ∧
          ((runActions env l s).present = true ∧ (runActions env l s).err = .none ∨
            (runActions env l s).present = s.present ∧
              ((runActions env l s).err = .nopresHigh ∨ (runActions env l s).err = .nopresLow))) := by
  induction l generalizing s with
  | nil => exact .inr ⟨rfl, rfl, .inl ⟨by simp [runActions], rfl⟩⟩
  | cons a l ih =>
    have later (u : State) (hf : u.fsm = s.fsm) (hp : u.present = s.present) := by
      have hu := ih u
      rw [hf, hp] at hu
      exact hu.imp_right fun ⟨hi, hd, ho⟩ =>
        And.intro hi (And.intro hd (ho.imp_right (And.imp_left (List.mem_cons_of_mem a))))
    cases a with
    | wait n =>
      by_cases hn : n = 0
      · simpa [runActions, hn] using later s rfl rfl
      · exact .inl (by simp [runActions, hn])
    | detect =>
      obtain ⟨ph, pk, h⟩ := s.detectFirst_cases env
      exact .inl (by simp [runActions, h])
    | detectNext =>
      obtain ⟨e, he, h⟩ | h | ⟨ph, pk, h⟩ := s.detectNext_cases env
      · exact .inr (by simp [runActions, h, he])
      · exact .inr (by simp [runActions, h])
      · exact .inl (by simp [runActions, h])
    | driveLow => exact later s.driveLow (by simp) (by simp)
    | release => exact later s.release (by simp) (by simp)
    | sample => exact later (s.sampleBit env) rfl rfl
    | setBi i => exact later { s with bi := .ofNat 3 i } rfl rfl
    | clearSh => exact later { s with sh := 0 } rfl rfl
    | accumulate i => exact later (s.accumulate i) rfl rfl
    | latchBit => exact later s.latchBit rfl rfl
    | latchByte => exact later s.latchByte rfl rfl

/-- What is left of a pseudocode is of its actions, or the detector's next turn. -/
theorem mem_fromOffset {a : Action} {l : List Action} {c : Nat} (h : a ∈ fromOffset l c) :
    a ∈ l ∨ .detect ∈ l ∧ a = .detectNext := by
  induction l generalizing c with
  | nil => cases h
  | cons b l ih =>
    have later {k : Nat} (h : a ∈ fromOffset l k) : a ∈ b :: l ∨ .detect ∈ b :: l ∧ a = .detectNext :=
      (ih h).imp (List.mem_cons_of_mem b) (And.imp_left (List.mem_cons_of_mem b))
    by_cases hc : c = 0
    · rw [hc, fromOffset_zero] at h
      exact .inl h
    cases b with
    | wait n =>
      rw [fromOffset, if_neg hc] at h
      by_cases hn : n ≤ c
      · exact later (by simpa [hn] using h)
      · simp [hn] at h
    | detect =>
      rw [fromOffset, if_neg hc] at h
      exact .inr (by simpa using h)
    | driveLow | release | sample | setBi | clearSh | accumulate | latchBit | latchByte | detectNext =>
      rw [fromOffset, if_neg hc] at h
      exact later h

/-- Only PRESENCE and INIT come to the detector's later turns. -/
theorem State.detector_of_detectNext_mem {s : State} (h : .detectNext ∈ fromOffset s.oprScript s.c.toNat) :
    s.opr = some .presence ∨ s.opr = some .init := by
  by_contra hno
  obtain ⟨hp, hi⟩ := not_or.mp hno
  obtain hmem | ⟨hmem, -⟩ := mem_fromOffset h
  · exact s.detectNext_not_mem_oprScript hmem
  · exact State.detect_not_mem_oprScript hp hi hmem

/-- A tick step leaves FSM and PRESENT, or completes the operation: without an error and with PRESENT as it was, or, in
PRESENCE and INIT, as the detector decides (60_exceptions.md R233, R239). -/
theorem State.tickStep_flags (env : Bool) (s : State) :
    ((s.tickStep env).fsm = s.fsm ∧ (s.tickStep env).present = s.present) ∨
    (s.fsm = .run ∧ (s.tickStep env).fsm = .idle ∧ (s.tickStep env).done = true ∧
      ((s.tickStep env).present = s.present ∧ (s.tickStep env).err = .none ∨
        (s.opr = some .presence ∨ s.opr = some .init) ∧
          ((s.tickStep env).present = true ∧ (s.tickStep env).err = .none ∨
            (s.tickStep env).present = s.present ∧
              ((s.tickStep env).err = .nopresHigh ∨ (s.tickStep env).err = .nopresLow)))) := by
  by_cases h : s.fsm = .run ∧ s.time + 1 = s.resumeAt
  · rw [State.tickStep_resume h.1 h.2]
    obtain hsame | ⟨hi, hd, ho⟩ := runActions_flags env (fromOffset s.oprScript s.c.toNat) s.advanceTime
    · exact .inl hsame
    · exact .inr ⟨h.1, hi, hd, ho.imp_right (And.imp_left s.detector_of_detectNext_mem)⟩
  · rw [State.tickStep_waiting h]
    exact .inl ⟨rfl, rfl⟩

/-! ### Where RXDATA is latched -/

/-- An action that latches RXDATA. -/
def latches : Action → Bool
  | .latchBit => true
  | .latchByte => true
  | .driveLow => false
  | .release => false
  | .wait _ => false
  | .sample => false
  | .setBi _ => false
  | .clearSh => false
  | .accumulate _ => false
  | .detect => false
  | .detectNext => false

/-- Where RXDATA is latched the pseudocode ends. -/
def latchesLast : List Action → Bool
  | [] => true
  | a :: l => (!latches a || l.isEmpty) && latchesLast l

theorem latchesLast_append {l : List Action} (h : l.all (fun a => !latches a) = true) (m : List Action) :
    latchesLast (l ++ m) = latchesLast m := by
  induction l with
  | nil => rfl
  | cons a l ih =>
    obtain ⟨ha, hl⟩ := Bool.and_eq_true_iff.mp (List.all_cons ▸ h)
    rw [List.cons_append, latchesLast, ha, ih hl, Bool.true_or, Bool.true_and]

theorem latchesLast_of_none {l : List Action} (h : l.all (fun a => !latches a) = true) : latchesLast l = true := by
  rw [← List.append_nil l, latchesLast_append h]
  rfl

theorem latchesLast_fromOffset {l : List Action} (h : latchesLast l = true) (c : Nat) :
    latchesLast (fromOffset l c) = true := by
  induction l generalizing c with
  | nil => rfl
  | cons a l ih =>
    obtain ⟨-, hl⟩ := Bool.and_eq_true_iff.mp h
    by_cases hc : c = 0
    · rwa [hc, fromOffset_zero]
    cases a with
    | wait n =>
      rw [fromOffset, if_neg hc]
      by_cases hn : n ≤ c
      · simpa [hn] using ih hl (c - n)
      · simp [hn, latchesLast]
    | detect =>
      rw [fromOffset, if_neg hc]
      rfl
    | driveLow | release | sample | setBi | clearSh | accumulate | latchBit | latchByte | detectNext =>
      rw [fromOffset, if_neg hc]
      exact ih hl c

/-- Running actions of which only the last latches leaves RXDATA, or latches it and completes without an error. -/
theorem runActions_rxdata {l : List Action} (h : latchesLast l = true) (env : Bool) (s : State) :
    (runActions env l s).rxdata = s.rxdata ∨
    (∃ a ∈ l, latches a = true) ∧ (runActions env l s).fsm = .idle ∧ (runActions env l s).done = true ∧
      (runActions env l s).err = .none := by
  induction l generalizing s with
  | nil => exact .inl (by simp [runActions])
  | cons a l ih =>
    obtain ⟨hlast, hl⟩ := Bool.and_eq_true_iff.mp h
    have later (u : State) (hu : u.rxdata = s.rxdata) := by
      have hrest := ih hl u
      rw [hu] at hrest
      exact hrest.imp_right
        (And.imp_left fun ⟨b, hb, hlatch⟩ => Exists.intro b (And.intro (List.mem_cons_of_mem a hb) hlatch))
    cases a with
    | latchBit | latchByte =>
      obtain rfl : l = [] := List.isEmpty_iff.mp hlast
      exact .inr ⟨⟨_, List.mem_cons_self, rfl⟩, rfl, rfl, rfl⟩
    | wait n =>
      by_cases hn : n = 0
      · simpa [runActions, hn] using later s rfl
      · exact .inl (by simp [runActions, hn])
    | detect =>
      obtain ⟨ph, pk, h⟩ := s.detectFirst_cases env
      exact .inl (by simp [runActions, h])
    | detectNext =>
      obtain ⟨e, -, h⟩ | h | ⟨ph, pk, h⟩ := s.detectNext_cases env <;> exact .inl (by simp [runActions, h])
    | driveLow => exact later s.driveLow (by simp)
    | release => exact later s.release (by simp)
    | sample => exact later (s.sampleBit env) rfl
    | setBi i => exact later { s with bi := .ofNat 3 i } rfl
    | clearSh => exact later { s with sh := 0 } rfl
    | accumulate i => exact later (s.accumulate i) rfl

/-- Only the two reads latch RXDATA. -/
theorem script_latches_none (p : Config.Params) {i : Instr} (hbit : i ≠ .readBit) (hbyte : i ≠ .readByte) :
    (script p i).all (fun a => !latches a) = true := by
  cases i with
  | readBit => exact absurd rfl hbit
  | readByte => exact absurd rfl hbyte
  | writeByte d => simp [script, writeByteScript, writeTurn, writeSlot, latches]
  | delay | writeBit | reset | presence | init | decode => rfl

/-- The two reads latch RXDATA last. -/
theorem latchesLast_script (p : Config.Params) (i : Instr) : latchesLast (script p i) = true := by
  by_cases hbit : i = .readBit
  · subst hbit
    rfl
  by_cases hbyte : i = .readByte
  · subst hbyte
    have hturns : ((List.range 8).flatMap (readTurn p)).all (fun a => !latches a) = true := by
      simp [readTurn, readSlotToSample, latches]
    exact latchesLast_append hturns [.latchByte]
  · exact latchesLast_of_none (script_latches_none p hbit hbyte)

/-- A tick step leaves RXDATA, but for the completion of a read (10_state.md R31). -/
theorem State.tickStep_rxdata (env : Bool) (s : State) :
    (s.tickStep env).rxdata = s.rxdata ∨
    s.fsm = .run ∧ (s.opr = some .readBit ∨ s.opr = some .readByte) ∧ (s.tickStep env).fsm = .idle ∧
      (s.tickStep env).done = true ∧ (s.tickStep env).err = .none := by
  by_cases h : s.fsm = .run ∧ s.time + 1 = s.resumeAt
  · rw [State.tickStep_resume h.1 h.2]
    have hlast : latchesLast s.oprScript = true := by
      unfold State.oprScript
      split
      · exact latchesLast_script _ _
      · rfl
    obtain hsame | ⟨⟨a, ha, hlatch⟩, hdone⟩ :=
      runActions_rxdata (latchesLast_fromOffset hlast s.c.toNat) env s.advanceTime
    · exact .inl hsame
    · refine .inr ⟨h.1, ?_, hdone⟩
      obtain hmem | ⟨-, rfl⟩ := mem_fromOffset ha
      · by_contra hno
        obtain ⟨hbit, hbyte⟩ := not_or.mp hno
        unfold State.oprScript at hmem
        split at hmem
        next i ho =>
          have hnone := script_latches_none s.params (i := i) (by rintro rfl; exact hbit ho)
            (by rintro rfl; exact hbyte ho)
          have hnot := List.all_eq_true.mp hnone a hmem
          simp [hlatch] at hnot
        next => cases hmem
      · cases hlatch
  · rw [State.tickStep_waiting h]
    exact .inl rfl

end Sys2Proof.Machine

namespace Sys2Proof.Machine

/-! ### Who writes what (10_state.md R25, R29, R31, R32) -/

/-- Settles O47: no tick writes TEMP, and of the accepted commands only DECODE does. -/
theorem tempWrittenOnlyByDecode : Obligations.TempWrittenOnlyByDecode := by
  intro s t h hne
  obtain ⟨e, d, l, n, rfl⟩ | ⟨d, r, l, rfl⟩ | ⟨v, l, -, rfl⟩ | ⟨w, l, hi, rfl⟩ | ⟨a, l, hi, -⟩ := step_outcome h
  · exact absurd (State.tickStep_temp e _) hne
  · exact absurd rfl hne
  · exact absurd rfl hne
  · left
    obtain ⟨-, hd⟩ | ⟨hf, i, hw, ha⟩ | ⟨-, ha⟩ := State.issue_acceptWord_cases w { s with inputs := l }
    · rw [hd] at hne
      exact absurd rfl hne
    · rw [ha] at hne ⊢
      by_cases hdec : ∃ th tl, i = .decode th tl
      · obtain ⟨th, tl, rfl⟩ := hdec
        exact ⟨w, th, tl, l, hi, hw, hf, rfl⟩
      · exact absurd (State.accept_temp (fun th tl hi => hdec ⟨th, tl, hi⟩) _) hne
    · rw [ha] at hne
      exact absurd rfl hne
  · exact .inr ⟨a, l, hi⟩

/-- Settles O48: acceptance leaves RXDATA, and of the ticks only the completion of a read writes it. -/
theorem rxdataWrittenOnlyByReads : Obligations.RxdataWrittenOnlyByReads := by
  intro s t h hne
  obtain ⟨e, d, l, n, rfl⟩ | ⟨d, r, l, rfl⟩ | ⟨v, l, -, rfl⟩ | ⟨w, l, -, rfl⟩ | ⟨a, l, hi, -⟩ := step_outcome h
  · exact .inl ((State.tickStep_rxdata e _).resolve_left hne)
  · exact absurd rfl hne
  · exact absurd rfl hne
  · obtain ⟨-, -, hrx, -⟩ := State.issue_frame (State.acceptWord_frame w) { s with inputs := l }
    exact absurd hrx hne
  · exact .inr ⟨a, l, hi⟩

/-- Settles O49: a tick writes PRESENT only where the detector succeeds, and acceptance only where it clears it. -/
theorem presentLife : Obligations.PresentLife := by
  intro s t h hne
  obtain ⟨e, d, l, n, rfl⟩ | ⟨d, r, l, rfl⟩ | ⟨v, l, -, rfl⟩ | ⟨w, l, hi, rfl⟩ | ⟨a, l, hi, -⟩ := step_outcome h
  · left
    obtain ⟨-, hsame⟩ | ⟨hr, hidle, hdone, ⟨hsame, -⟩ | ⟨ho, ⟨hset, herr⟩ | ⟨hsame, -⟩⟩⟩ :=
      State.tickStep_flags e { s with div := d, inputs := l, draws := n }
    · exact absurd hsame hne
    · exact absurd hsame hne
    · exact ⟨hset, hr, ho, hidle, hdone, herr⟩
    · exact absurd hsame hne
  · exact absurd rfl hne
  · exact absurd rfl hne
  · right; left
    obtain ⟨-, hd⟩ | ⟨hf, i, hw, ha⟩ | ⟨-, ha⟩ := State.issue_acceptWord_cases w { s with inputs := l }
    · rw [hd] at hne
      exact absurd rfl hne
    · rw [ha] at hne ⊢
      cases hc : clearsPresent i with
      | true =>
        rw [State.accept_clearsPresent hc]
        exact ⟨rfl, hf, rfl, w, i, l, hi, hw, hc⟩
      | false => exact absurd (State.accept_present hc _) hne
    · rw [ha] at hne
      exact absurd rfl hne
  · exact .inr (.inr ⟨a, l, hi⟩)

/-- Settles O51: no tick and no command writes GATE or the parameters, and a block reset keeps the parameters. -/
theorem gateWrittenOnlyByCtrl : Obligations.GateWrittenOnlyByCtrl := by
  intro s t h
  obtain ⟨e, d, l, n, rfl⟩ | ⟨d, r, l, rfl⟩ | ⟨v, l, hi, rfl⟩ | ⟨w, l, -, rfl⟩ | ⟨a, l, hi, rfl⟩ := step_outcome h
  · exact ⟨State.tickStep_params e _, fun hne => absurd (State.tickStep_gate e _) hne⟩
  · exact ⟨rfl, fun hne => absurd rfl hne⟩
  · exact ⟨rfl, fun _ => .inl ⟨v, l, hi, rfl⟩⟩
  · obtain ⟨hparams, hgate, -⟩ := State.issue_frame (State.acceptWord_frame w) { s with inputs := l }
    exact ⟨hparams, fun hne => absurd hgate hne⟩
  · exact ⟨rfl, fun _ => .inr ⟨a, l, hi⟩⟩

/-! ### Completion and start -/

/-- Settles O52: of the moves only a tick completes an operation, and it does so at once. -/
theorem completionIsOneStep : Obligations.CompletionIsOneStep := by
  intro s t h hr hidle hrst
  obtain ⟨e, d, l, n, rfl⟩ | ⟨d, r, l, rfl⟩ | ⟨v, l, -, rfl⟩ | ⟨w, l, -, rfl⟩ | ⟨a, l, hi, -⟩ := step_outcome h
  · obtain ⟨hdone, hout⟩ := State.tickStep_completed (s := { s with div := d, inputs := l, draws := n }) hr e hidle
    refine ⟨hdone, State.busy_eq_false.mpr hidle, hout, ?_⟩
    obtain ⟨hf, -⟩ | ⟨-, -, -, ⟨-, herr⟩ | ⟨ho, ⟨-, herr⟩ | ⟨hsame, herr⟩⟩⟩ :=
      State.tickStep_flags e { s with div := d, inputs := l, draws := n }
    · cases hidle.symm.trans (hf.trans hr)
    · exact .inl herr
    · exact .inl herr
    · exact .inr ⟨ho, herr, hsame⟩
  · simp [hr] at hidle
  · simp [hr] at hidle
  · obtain ⟨-, hd⟩ | ⟨hf, -⟩ | ⟨hf, -⟩ := State.issue_acceptWord_cases w { s with inputs := l }
    · rw [hd] at hidle
      cases hidle.symm.trans hr
    · cases hf.symm.trans hr
    · cases hf.symm.trans hr
  · exact absurd hi (hrst a l)

/-- A command that starts is the operation that runs. -/
theorem State.accept_opr {i : Instr} {a : State} (hidle : a.fsm = .idle) (hrun : (a.accept i).fsm = .run) :
    (a.accept i).opr = some i := by
  obtain ⟨e, h⟩ | h | h | ⟨th, tl, -, h⟩ := a.accept_cases i <;> rw [h] at hrun ⊢
  · cases hrun.symm.trans hidle
  · rfl
  · rfl
  · cases hrun.symm.trans hidle

/-- Settles O53: of the moves only an accepted command starts an operation, and a bus data command passes the gate. -/
theorem noBusDataWithoutPresence : Obligations.NoBusDataWithoutPresence := by
  intro s t h hidle hrun i ho hb
  obtain ⟨e, d, l, n, rfl⟩ | ⟨d, r, l, rfl⟩ | ⟨v, l, -, rfl⟩ | ⟨w, l, -, rfl⟩ | ⟨a, l, -, rfl⟩ := step_outcome h
  · rw [State.tickStep_idle (s := { s with div := d, inputs := l, draws := n }) hidle] at hrun
    simp [hidle] at hrun
  · simp [hidle] at hrun
  · simp [hidle] at hrun
  · obtain ⟨hf, -⟩ | ⟨-, j, -, ha⟩ | ⟨-, ha⟩ := State.issue_acceptWord_cases w { s with inputs := l }
    · cases hf.symm.trans hidle
    · rw [ha] at hrun ho
      have hopr := State.accept_opr (a := State.clearFlags { s with inputs := l }) hidle hrun
      obtain rfl : j = i := Option.some.inj (hopr.symm.trans ho)
      by_contra hclosed
      have hshut : (State.clearFlags { s with inputs := l }).gateOpen = false :=
        Bool.eq_false_iff.mpr (State.gateOpen_eq_true.not.mpr hclosed)
      rw [State.accept_shut hb hshut] at hrun
      cases hrun.symm.trans hidle
    · rw [ha] at hrun
      cases hrun.symm.trans hidle
  · cases hrun

/-! ### Host accesses during an operation (70_reset_and_hazards.md R278) -/

/-- While an operation runs an access writes OVR, GATE or the read port alone. -/
theorem access_run {a : Access} {s t : State} (hr : s.fsm = .run) (h : access a s = .next t) :
    ∃ o g r, t = s.unseen o g r s.inputs s.draws := by
  obtain ⟨r, -, rfl⟩ | ⟨w, -, rfl⟩ | ⟨v, -, rfl⟩ | ⟨r, v, -, -, -, hsame⟩ := access_cases h
  · exact ⟨s.ovr, s.gate, s.regRead r, rfl⟩
  · exact ⟨true, s.gate, s.rdata, State.issue_busy (State.busy_eq_true.mpr hr) _⟩
  · exact ⟨s.ovr, v.getLsbD 0, s.rdata, rfl⟩
  · exact ⟨s.ovr, s.gate, s.rdata, hsame⟩

/-- Settles O54: what an access writes while an operation runs, no tick looks at. -/
theorem hostCannotDisturbARunningOperation : Obligations.HostCannotDisturbARunningOperation := by
  intro s a hr hadm
  obtain ⟨t, ht⟩ := access_next hadm s
  obtain ⟨o, g, r, rfl⟩ := access_run hr ht
  refine ⟨_, ht, fun es => ?_⟩
  calc { (s.unseen o g r s.inputs s.draws).ticks es with ovr := s.ovr, gate := s.gate, rdata := s.rdata }
    _ = (s.ticks es).unseen s.ovr s.gate s.rdata s.inputs s.draws := by rw [State.ticks_unseen]; rfl
    _ = (s.unseen s.ovr s.gate s.rdata s.inputs s.draws).ticks es := (State.ticks_unseen es s _ _ _ _ _).symm
    _ = s.ticks es := rfl

/-! ### The host beside the OWC -/

/-- Settles O60: the check looks at the error field of the word alone. -/
theorem failedPresenceEndsTheTransaction : Obligations.FailedPresenceEndsTheTransaction := by
  intro h x rest hp
  have hfield : (h.vars.get x).toNat / 16 % 16 = ((h.vars.get x).extractLsb' 4 4).toNat :=
    (toNat_extractLsb'_eq_div_mod _ 4 4).symm
  have hzero : (h.vars.get x).extractLsb' 4 4 = 0 ↔ (h.vars.get x).toNat / 16 % 16 = 0 := by
    rw [hfield, BitVec.toNat_eq]
    rfl
  have hmove : h.move .host =
      if (h.vars.get x).extractLsb' 4 4 = 0 then .next { h with prog := rest }
      else .next { h with prog := [], noDevice := true } := by
    rw [HostRun.move, hp]
  rw [hmove]
  refine ⟨fun herr => ?_, fun hok => if_pos (hzero.mpr hok)⟩
  exact ⟨_, if_neg (hzero.not.mpr herr), rfl, rfl, rfl⟩

/-- One DELAY of WAIT_US: its lines, and the ticks its command word decodes to. -/
theorem hostDo_delay (k : BitVec 16) :
    hostDo (.delay k) = [.write .cmd (.ofNat 32 (k.toNat * 2 ^ 8 + 0x1)), .poll] ∧
      ((hostDo (.delay k)).map HostOp.delayTicks).sum = k.toNat := by
  have hword : encode (.delay k) = .ofNat 32 (k.toNat * 2 ^ 8 + 0x1) := by
    have h := toNat_encode (.delay k)
    rw [Instr.arg, Instr.op] at h
    rw [← h, BitVec.ofNat_toNat, BitVec.setWidth_eq]
  refine ⟨by rw [hostDo, hword], ?_⟩
  simp [hostDo, HostOp.delayTicks, decode_encode]

/-- The ticks of the DELAYs issued are the counts. -/
theorem delayTicks_hostDo_delays (ks : List (BitVec 16)) :
    ((ks.flatMap fun k => hostDo (.delay k)).map HostOp.delayTicks).sum = (ks.map BitVec.toNat).sum := by
  induction ks with
  | nil => rfl
  | cons k ks ih =>
    rw [List.flatMap_cons, List.map_append, List.sum_append, (hostDo_delay k).2, ih, List.map_cons, List.sum_cons]

/-- Settles O59: each count is one DELAY and a POLL, and the counts are a division with remainder. -/
theorem waitUsIssuesItsDelays : Obligations.WaitUsIssuesItsDelays := by
  intro n
  have hlast : (BitVec.ofNat 16 (n % 65535)).toNat = n % 65535 := by
    rw [BitVec.toNat_ofNat]
    omega
  constructor
  · have hfull : hostDo (.delay 65535) = [.write .cmd 0x00FFFF01, .poll] := (hostDo_delay 65535).1
    rw [hostWaitUs, waitCounts, List.flatMap_append, List.flatMap_replicate, List.flatMap_singleton, hfull,
      (hostDo_delay _).1, hlast]
  · rw [hostWaitUs, delayTicks_hostDo_delays, waitCounts, List.map_append, List.sum_append, List.map_replicate,
      List.sum_replicate, List.map_singleton, List.sum_singleton, hlast, smul_eq_mul]
    exact Nat.div_add_mod' n 65535

end Sys2Proof.Machine

namespace Sys2Proof.Machine

/-! ### The run of a pseudocode without the detector (40_timing.md R103, R105)

`whole` is the state after all actions and waits, `runTo k` the one after the ticks up to offset `k`; `env` gives the
level at each offset. `Due.ticks` ties them to the tick steps. -/

/-- A wait of n ticks, all of them past. -/
def State.later (n : Nat) (s : State) : State := (s.suspend n).setTime (s.time + BitVec.ofNat 32 n)

/-- The state after all actions of a pseudocode. -/
def whole (env : Nat → Bool) : List Action → State → State
  | [], s => s
  | .wait n :: l, s => whole (fun k => env (n + k)) l (s.later n)
  | a :: l, s => whole env l (effect (env 0) a s)

/-- The state after the tick at offset k of a pseudocode. -/
def runTo (env : Nat → Bool) : List Action → Nat → State → State
  | [], _, s => s.complete .none
  | .wait n :: l, k, s =>
    if n ≤ k then runTo (fun j => env (n + j)) l (k - n) (s.later n)
    else (s.suspend n).setTime (s.time + BitVec.ofNat 32 k)
  | a :: l, k, s => runTo env l k (effect (env 0) a s)

/-- The level at each offset, of a run of ticks. -/
def levelAt (es : List Bool) (k : Nat) : Bool := es.getD k false

@[simp] theorem levelAt_cons_zero (e : Bool) (es : List Bool) : levelAt (e :: es) 0 = e := rfl

theorem levelAt_eq {es : List Bool} {k : Nat} {b : Bool} (h : es[k]? = some b) : levelAt es k = b := by
  simp [levelAt, h]

/-- An action that is not the detector's. -/
def plain : Action → Bool
  | .detect => false
  | .detectNext => false
  | .driveLow => true
  | .release => true
  | .wait _ => true
  | .sample => true
  | .setBi _ => true
  | .clearSh => true
  | .accumulate _ => true
  | .latchBit => true
  | .latchByte => true

@[simp] theorem State.later_zero (s : State) : s.later 0 = s := by
  simp [State.later, State.suspend, State.setTime]

theorem runTo_quiet {q : List Action} (hq : q.all quiet = true) (env : Nat → Bool) (l : List Action) (k : Nat)
    (s : State) : runTo env (q ++ l) k s = runTo env l k (effects (env 0) q s) := by
  induction q generalizing s with
  | nil => rfl
  | cons a q ih =>
    obtain ⟨ha, hq⟩ := Bool.and_eq_true_iff.mp (List.all_cons ▸ hq)
    rw [List.cons_append, effects_cons, ← ih hq]
    cases a with
    | wait w =>
      obtain rfl : w = 0 := by simpa [quiet] using ha
      simp [runTo, effect]
    | detect | detectNext => cases ha
    | driveLow | release | sample | setBi | clearSh | accumulate | latchBit | latchByte => rfl

theorem ofNat_succ (t : Word) (n : Nat) : t + 1 + BitVec.ofNat 32 n = t + BitVec.ofNat 32 (n + 1) := by
  rw [BitVec.add_assoc, Nat.add_comm, BitVec.ofNat_add]
  rfl

/-- The ticks of one segment, up to the next at which the operation is due. -/
theorem Due.segment {s : State} {l m : List Action} {n : Nat} (h : Due s (l ++ .wait n :: m))
    (hl : l.all quiet = true) (hn : 1 ≤ n) (hc : s.c.toNat + n < 2 ^ 16) {e : Bool} {es : List Bool}
    (hes : es.length + 1 = n) :
    s.ticks (e :: es) = ((effects e l s.advanceTime).suspend n).setTime (s.time + BitVec.ofNat 32 n) ∧
      Due (s.ticks (e :: es)) m := by
  have hticks := h.within hl hn hc e es (by omega)
  rw [ofNat_succ, hes] at hticks
  exact ⟨hticks, hticks ▸ h.after hl hn hc e⟩

/-- The ticks of an operation that is due follow its pseudocode. -/
theorem Due.ticks_cons (l : List Action) {q : List Action} {s : State} (h : Due s (q ++ l))
    (hq : q.all quiet = true) (hl : l.all plain = true) (hc : s.c.toNat + duration l < 2 ^ 16) {e : Bool}
    {es : List Bool} (hk : es.length ≤ duration l) :
    s.ticks (e :: es) = runTo (levelAt (e :: es)) (q ++ l) es.length s.advanceTime := by
  induction l generalizing q s e es with
  | nil =>
    obtain rfl : es = [] := List.length_eq_zero_iff.mp (Nat.le_zero.mp hk)
    rw [runTo_quiet hq]
    rw [List.append_nil] at h
    exact h.finish hq e
  | cons a l ih =>
    obtain ⟨ha, hl⟩ := Bool.and_eq_true_iff.mp (List.all_cons ▸ hl)
    cases hqa : quiet a with
    | true =>
      have hd : duration (a :: l) = duration l := by
        rw [← List.singleton_append, duration_append, duration_quiet (by simp [hqa]), Nat.zero_add]
      rw [hd] at hc hk
      rw [List.append_cons] at h ⊢
      exact ih h (by simp [hq, hqa]) hl hc hk
    | false =>
      cases a with
      | wait n =>
        have hn : 1 ≤ n := Nat.one_le_iff_ne_zero.mpr (by simpa [quiet] using hqa)
        obtain ⟨-, -, -, -, -, -, -, htime, -, -, -, heff, -⟩ := effects_frame e q s.advanceTime
        rw [duration] at hc hk
        rw [runTo_quiet hq, runTo]
        by_cases hnk : n ≤ es.length
        · rw [if_pos hnk]
          obtain ⟨es₁, e', es₂, rfl, hlen⟩ : ∃ es₁ e' es₂, es = es₁ ++ e' :: es₂ ∧ es₁.length + 1 = n := by
            obtain ⟨e', es₂, hdrop⟩ := List.exists_cons_of_length_pos (l := es.drop (n - 1)) (by simp; omega)
            refine ⟨es.take (n - 1), e', es₂, ?_, by simp; omega⟩
            rw [← hdrop, List.take_append_drop]
          obtain ⟨hfirst, hafter⟩ := h.segment hq hn (by omega) (e := e) hlen
          rw [List.length_append, List.length_cons] at hk hnk ⊢
          rw [hfirst] at hafter
          rw [← List.cons_append, State.ticks_append, hfirst,
            ih (q := []) hafter rfl hl (by simp [heff]; omega) (by omega)]
          have henv : (fun j => levelAt (e :: es₁ ++ e' :: es₂) (n + j)) = levelAt (e' :: es₂) := by
            funext j
            rw [levelAt, levelAt, List.getD_append_right _ _ _ _ (by simp; omega)]
            congr 1
            simp
            omega
          have hstate : (((effects e q s.advanceTime).suspend n).setTime (s.time + BitVec.ofNat 32 n)).advanceTime =
              (effects e q s.advanceTime).later n := by
            rw [State.advanceTime, State.setTime_setTime, State.later, htime]
            congr 1
            exact add_right_comm s.time _ _
          rw [henv, hstate, List.nil_append]
          congr 1
          omega
        · rw [if_neg hnk, h.within hq hn (by omega) e es (by omega)]
          simp [htime]
      | detect | detectNext => cases ha
      | driveLow | release | sample | setBi | clearSh | accumulate | latchBit | latchByte => cases hqa

/-- The ticks of an operation just started follow its pseudocode. -/
theorem State.begin_ticks {a : State} {i : Instr} (hle : duration (script a.params i) ≤ 65535)
    (hp : (script a.params i).all plain = true)
    {es : List Bool} {k : Nat} (hes : es.length = k + 1) (hk : k ≤ duration (script a.params i)) :
    (a.begin i).ticks es = runTo (levelAt es) (script a.params i) k (a.begin i).advanceTime := by
  obtain ⟨e, es, rfl⟩ := List.exists_cons_of_length_eq_add_one hes
  obtain rfl : es.length = k := by simpa using hes
  exact Due.ticks_cons (script a.params i) (q := []) (Due.begin a i) rfl hp
    (by rw [State.begin_c]; exact Nat.lt_of_le_of_lt (Nat.zero_add _).le (by omega)) hk

/-! ### Parts of a pseudocode -/

@[simp] theorem State.later_out (n : Nat) (s : State) : (s.later n).out = s.out := rfl

@[simp] theorem State.later_bit (n : Nat) (s : State) : (s.later n).bit = s.bit := rfl

@[simp] theorem State.later_sh (n : Nat) (s : State) : (s.later n).sh = s.sh := rfl

@[simp] theorem State.later_history (n : Nat) (s : State) : (s.later n).history = s.history := rfl

@[simp] theorem State.later_time (n : Nat) (s : State) : (s.later n).time = s.time + BitVec.ofNat 32 n := rfl

/-- Either a wait, or an action that takes no time. -/
theorem wait_or_ne (a : Action) : (∃ n, a = .wait n) ∨ ∀ n, a ≠ .wait n := by
  cases a with
  | wait n => exact .inl ⟨n, rfl⟩
  | _ => exact .inr nofun

theorem whole_cons {a : Action} (ha : ∀ n, a ≠ .wait n) (env : Nat → Bool) (l : List Action) (s : State) :
    whole env (a :: l) s = whole env l (effect (env 0) a s) := by
  cases a with
  | wait n => exact absurd rfl (ha n)
  | _ => rfl

theorem runTo_cons {a : Action} (ha : ∀ n, a ≠ .wait n) (env : Nat → Bool) (l : List Action) (k : Nat) (s : State) :
    runTo env (a :: l) k s = runTo env l k (effect (env 0) a s) := by
  cases a with
  | wait n => exact absurd rfl (ha n)
  | _ => rfl

theorem duration_cons {a : Action} (ha : ∀ n, a ≠ .wait n) (l : List Action) : duration (a :: l) = duration l := by
  cases a with
  | wait n => exact absurd rfl (ha n)
  | _ => rfl

theorem whole_append (env : Nat → Bool) (l m : List Action) (s : State) :
    whole env (l ++ m) s = whole (fun k => env (duration l + k)) m (whole env l s) := by
  induction l generalizing env s with
  | nil => simp [whole, duration]
  | cons a l ih =>
    rw [List.cons_append]
    cases a with
    | wait n => simp only [whole, ih, duration, Nat.add_assoc]
    | _ => exact ih env _

/-- The first part decides up to its end. -/
theorem runTo_append_of_lt (env : Nat → Bool) (l m : List Action) {k : Nat} (hk : k < duration l) (s : State) :
    runTo env (l ++ m) k s = runTo env l k s := by
  induction l generalizing env k s with
  | nil => exact absurd hk (Nat.not_lt_zero k)
  | cons a l ih =>
    rw [List.cons_append]
    cases a with
    | wait n =>
      rw [duration] at hk
      by_cases hn : n ≤ k
      · rw [runTo, runTo, if_pos hn, if_pos hn, ih _ (by omega)]
      · rw [runTo, runTo, if_neg hn, if_neg hn]
    | _ => exact ih env hk _

/-- From the end of the first part on the second decides. -/
theorem runTo_append_add (env : Nat → Bool) (l m : List Action) (k : Nat) (s : State) :
    runTo env (l ++ m) (duration l + k) s = runTo (fun j => env (duration l + j)) m k (whole env l s) := by
  induction l generalizing env s with
  | nil => simp [whole, duration]
  | cons a l ih =>
    rw [List.cons_append]
    cases a with
    | wait n =>
      rw [runTo, duration, if_pos (by omega), Nat.add_assoc, Nat.add_sub_cancel_left, ih]
      simp only [whole, Nat.add_assoc]
    | _ => exact ih env _

/-- At the end of its waits a pseudocode completes. -/
theorem runTo_duration (env : Nat → Bool) (l : List Action) (s : State) :
    runTo env l (duration l) s = (whole env l s).complete .none := by
  have h := runTo_append_add env l [] 0 s
  rwa [List.append_nil] at h

/-! ### What the run of a pseudocode leaves alone -/

theorem effect_fields (env : Bool) (a : Action) (s : State) :
    (effect env a s).params = s.params ∧ (effect env a s).present = s.present ∧ (effect env a s).ovr = s.ovr ∧
    (effect env a s).gate = s.gate ∧ (effect env a s).temp = s.temp ∧ (effect env a s).time = s.time ∧
    (effect env a s).fsm = s.fsm ∧ (effect env a s).div = s.div ∧ (effect env a s).inputs = s.inputs := by
  cases a <;> simp [effect]

theorem whole_frame (env : Nat → Bool) (l : List Action) (s : State) :
    (whole env l s).params = s.params ∧ (whole env l s).present = s.present ∧ (whole env l s).ovr = s.ovr ∧
    (whole env l s).gate = s.gate ∧ (whole env l s).temp = s.temp ∧
    (whole env l s).time = s.time + BitVec.ofNat 32 (duration l) ∧ (whole env l s).fsm = s.fsm ∧
    (whole env l s).div = s.div ∧ (whole env l s).inputs = s.inputs := by
  induction l generalizing env s with
  | nil => simp [whole, duration]
  | cons a l ih =>
    obtain ⟨n, rfl⟩ | ha := wait_or_ne a
    · have h := ih (fun k => env (n + k)) (s.later n)
      simpa [whole, duration, State.later, BitVec.ofNat_add, BitVec.add_assoc] using h
    · have h := ih env (effect (env 0) a s)
      simpa [whole_cons ha, duration_cons ha, effect_fields] using h

/-- Before its end a pseudocode is running. -/
theorem runTo_fsm (env : Nat → Bool) (l : List Action) {k : Nat} (hk : k < duration l) (s : State) :
    (runTo env l k s).fsm = s.fsm := by
  induction l generalizing env k s with
  | nil => exact absurd hk (Nat.not_lt_zero k)
  | cons a l ih =>
    obtain ⟨n, rfl⟩ | ha := wait_or_ne a
    · rw [duration] at hk
      rw [runTo]
      by_cases hn : n ≤ k
      · rw [if_pos hn, ih _ (by omega)]
        rfl
      · rw [if_neg hn]
        rfl
    · rw [duration_cons ha] at hk
      rw [runTo_cons ha, ih _ hk]
      simp [effect_fields]

/-- Without a latch RXDATA stays. -/
theorem effect_rxdata {a : Action} (ha : latches a = false) (env : Bool) (s : State) :
    (effect env a s).rxdata = s.rxdata := by
  cases a with
  | latchBit | latchByte => cases ha
  | driveLow | release => simp [effect]
  | wait | sample | setBi | clearSh | accumulate | detect | detectNext => rfl

theorem whole_rxdata {l : List Action} (h : l.all (fun a => !latches a) = true) (env : Nat → Bool) (s : State) :
    (whole env l s).rxdata = s.rxdata := by
  induction l generalizing env s with
  | nil => rfl
  | cons a l ih =>
    obtain ⟨hlatch, hl⟩ := Bool.and_eq_true_iff.mp (List.all_cons ▸ h)
    obtain ⟨n, rfl⟩ | ha := wait_or_ne a
    · exact ih hl _ (s.later n)
    · rw [whole_cons ha, ih hl, effect_rxdata (by simpa using hlatch)]

theorem runTo_rxdata {l : List Action} (h : l.all (fun a => !latches a) = true) (env : Nat → Bool) (k : Nat)
    (s : State) : (runTo env l k s).rxdata = s.rxdata := by
  induction l generalizing env k s with
  | nil => simp [runTo]
  | cons a l ih =>
    obtain ⟨hlatch, hl⟩ := Bool.and_eq_true_iff.mp (List.all_cons ▸ h)
    obtain ⟨n, rfl⟩ | ha := wait_or_ne a
    · rw [runTo]
      split
      · exact ih hl _ _ (s.later n)
      · rfl
    · rw [runTo_cons ha, ih hl, effect_rxdata (by simpa using hlatch)]

/-! ### Samples -/

theorem Sampled.refl (s : State) : Sampled s s [] := ⟨[], rfl, rfl⟩

theorem Sampled.of_history_eq {s t : State} (h : t.history = s.history) : Sampled s t [] := ⟨[], h, rfl⟩

theorem Sampled.trans {s t u : State} {l m : List (Word × Bool)} (h : Sampled s t l) (k : Sampled t u m) :
    Sampled s u (l ++ m) := by
  obtain ⟨a, ha, rfl⟩ := h
  obtain ⟨b, hb, rfl⟩ := k
  refine ⟨b ++ a, by rw [hb, ha, List.append_assoc], ?_⟩
  rw [List.reverse_append, samplesOf, List.filterMap_append]
  rfl

/-- A change of the line is no sample. -/
theorem Sampled.setOut (s : State) (o : LineOut) : Sampled s (s.setOut o) [] := by
  by_cases h : s.out = o
  · rw [State.setOut_same h]
    exact .refl s
  · rw [State.setOut_change h]
    exact ⟨[.out s.time o], rfl, rfl⟩

theorem Sampled.complete (s : State) (e : ErrCode) : Sampled s (s.complete e) [] := Sampled.setOut s .released

/-- An action that takes no sample. -/
def noSample : Action → Bool
  | .sample => false
  | _ => true

theorem Sampled.effect {a : Action} (ha : noSample a = true) (env : Bool) (s : State) :
    Sampled s (effect env a s) [] := by
  cases a with
  | sample => cases ha
  | driveLow => exact Sampled.setOut s .low
  | release => exact Sampled.setOut s .released
  | wait | setBi | clearSh | accumulate | latchBit | latchByte | detect | detectNext => exact ⟨[], rfl, rfl⟩

theorem Sampled.whole {l : List Action} (h : l.all noSample = true) (env : Nat → Bool) (s : State) :
    Sampled s (whole env l s) [] := by
  induction l generalizing env s with
  | nil => exact .refl s
  | cons a l ih =>
    obtain ⟨hs, hl⟩ := Bool.and_eq_true_iff.mp (List.all_cons ▸ h)
    obtain ⟨n, rfl⟩ | ha := wait_or_ne a
    · exact ih hl _ (s.later n)
    · rw [whole_cons ha]
      exact (Sampled.effect hs _ s).trans (ih hl env _)

/-! ### Accepted, run and completed -/

/-- What acceptance makes of the state in which an operation was issued, before it starts it. -/
structure AcceptedFrom (s a : State) : Prop where
  params : a.params = s.params
  ovr : a.ovr = false
  gate : a.gate = s.gate
  rxdata : a.rxdata = s.rxdata
  temp : a.temp = s.temp
  time : a.time = s.time
  out : a.out = s.out
  div : a.div = s.div
  history : a.history = s.history
  inputs : a.inputs = s.inputs

theorem AcceptedFrom.clearFlags (s : State) : AcceptedFrom s s.clearFlags :=
  ⟨rfl, rfl, rfl, rfl, rfl, rfl, rfl, rfl, rfl, rfl⟩

theorem AcceptedFrom.clearPresent (s : State) : AcceptedFrom s s.clearFlags.clearPresent :=
  ⟨rfl, rfl, rfl, rfl, rfl, rfl, rfl, rfl, rfl, rfl⟩

/-- After the last tick of its pseudocode an operation has completed without an error. -/
theorem AcceptedFrom.completed {s a : State} (h : AcceptedFrom s a) (i : Instr) (env : Nat → Bool) (l : List Action) :
    CompletedFrom s ((whole env l (a.begin i).advanceTime).complete .none) .none (duration l + 1) := by
  obtain ⟨hparams, -, hovr, hgate, -, htime, -, hdiv, hinputs⟩ := whole_frame env l (a.begin i).advanceTime
  refine ⟨rfl, by simp, rfl, rfl, ?_, ?_, ?_, ?_, ?_, ?_⟩
  · simp [hovr, h.ovr]
  · rw [State.complete_time, htime, State.advanceTime_time, State.begin_time, h.time, ofNat_succ]
  · simp [hgate, h.gate]
  · simp [hparams, h.params]
  · simp [hdiv, h.div]
  · simp [hinputs, h.inputs]

end Sys2Proof.Machine

namespace Sys2Proof.Machine

/-! ### The line in a slot (41_bit_slots.md R124) -/

/-- An action that does not drive the line. -/
def noDrive : Action → Bool
  | .driveLow => false
  | _ => true

theorem effect_released {a : Action} (ha : noDrive a = true) (env : Bool) {s : State} (hs : s.out = .released) :
    (effect env a s).out = .released := by
  cases a with
  | driveLow => cases ha
  | release => exact State.release_out s
  | wait | sample | setBi | clearSh | accumulate | latchBit | latchByte | detect | detectNext => exact hs

theorem whole_released {l : List Action} (h : l.all noDrive = true) (env : Nat → Bool) {s : State}
    (hs : s.out = .released) : (whole env l s).out = .released := by
  induction l generalizing env s with
  | nil => exact hs
  | cons a l ih =>
    obtain ⟨hd, hl⟩ := Bool.and_eq_true_iff.mp (List.all_cons ▸ h)
    obtain ⟨n, rfl⟩ | ha := wait_or_ne a
    · exact ih hl _ (s := s.later n) hs
    · rw [whole_cons ha]
      exact ih hl env (effect_released hd _ hs)

theorem runTo_released {l : List Action} (h : l.all noDrive = true) (env : Nat → Bool) (k : Nat) {s : State}
    (hs : s.out = .released) : (runTo env l k s).out = .released := by
  induction l generalizing env k s with
  | nil => exact State.complete_out s .none
  | cons a l ih =>
    obtain ⟨hd, hl⟩ := Bool.and_eq_true_iff.mp (List.all_cons ▸ h)
    obtain ⟨n, rfl⟩ | ha := wait_or_ne a
    · rw [runTo]
      split
      · exact ih hl _ _ (s := s.later n) hs
      · exact hs
    · rw [runTo_cons ha]
      exact ih hl env k (effect_released hd _ hs)

@[simp] theorem runTo_driveLow (env : Nat → Bool) (l : List Action) (k : Nat) (s : State) :
    runTo env (.driveLow :: l) k s = runTo env l k s.driveLow := rfl

@[simp] theorem runTo_release (env : Nat → Bool) (l : List Action) (k : Nat) (s : State) :
    runTo env (.release :: l) k s = runTo env l k s.release := rfl

@[simp] theorem whole_driveLow (env : Nat → Bool) (l : List Action) (s : State) :
    whole env (.driveLow :: l) s = whole env l s.driveLow := rfl

@[simp] theorem whole_release (env : Nat → Bool) (l : List Action) (s : State) :
    whole env (.release :: l) s = whole env l s.release := rfl

@[simp] theorem runTo_setBi (env : Nat → Bool) (i : Nat) (l : List Action) (k : Nat) (s : State) :
    runTo env (.setBi i :: l) k s = runTo env l k { s with bi := .ofNat 3 i } := rfl

@[simp] theorem runTo_clearSh (env : Nat → Bool) (l : List Action) (k : Nat) (s : State) :
    runTo env (.clearSh :: l) k s = runTo env l k { s with sh := 0 } := rfl

@[simp] theorem whole_clearSh (env : Nat → Bool) (l : List Action) (s : State) :
    whole env (.clearSh :: l) s = whole env l { s with sh := 0 } := rfl

@[simp] theorem whole_latchByte (env : Nat → Bool) (l : List Action) (s : State) :
    whole env (.latchByte :: l) s = whole env l s.latchByte := rfl

/-- A slot is low for its low time, and released for the rest. -/
theorem runTo_slot_out {m : List Action} (hm : m.all noDrive = true) (env : Nat → Bool) (low k : Nat) (s : State) :
    (runTo env (.driveLow :: .wait low :: .release :: m) k s).out = if k < low then .low else .released := by
  rw [runTo_driveLow, runTo]
  by_cases hk : k < low
  · rw [if_neg (by omega), if_pos hk]
    exact State.driveLow_out s
  · rw [if_pos (by omega), if_neg hk, runTo_release]
    exact runTo_released hm _ _ (State.release_out _)

/-- After its slot the line is released. -/
theorem whole_slot_out {m : List Action} (hm : m.all noDrive = true) (env : Nat → Bool) (low : Nat) (s : State) :
    (whole env (.driveLow :: .wait low :: .release :: m) s).out = .released := by
  rw [whole_driveLow, whole, whole_release]
  exact whole_released hm _ (State.release_out _)

/-! ### Operations of one slot -/

section

variable {s a : State} {i : Instr}

/-- While its pseudocode lasts an operation runs. -/
theorem AcceptedFrom.ticks_running (h : AcceptedFrom s a) (hl : duration (script s.params i) ≤ 65535)
    (hp : (script s.params i).all plain = true) {es : List Bool} {o : Nat} (hes : es.length = o + 1)
    (ho : o < duration (script s.params i)) :
    (a.begin i).ticks es = runTo (levelAt es) (script s.params i) o (a.begin i).advanceTime ∧
      ((a.begin i).ticks es).fsm = .run := by
  rw [← h.params] at hl hp ho ⊢
  rw [State.begin_ticks hl hp hes ho.le]
  exact ⟨rfl, runTo_fsm _ _ ho _⟩

/-- At the end of its pseudocode an operation has completed without an error; PRESENT and TEMP are as at its start. -/
theorem AcceptedFrom.ticks_completed (h : AcceptedFrom s a) (hl : duration (script s.params i) ≤ 65535)
    (hp : (script s.params i).all plain = true) {es : List Bool} {d : Nat} (hd : duration (script s.params i) = d)
    (hes : es.length = d + 1) :
    (a.begin i).ticks es =
      (whole (levelAt es) (script s.params i) (a.begin i).advanceTime).complete .none ∧
    CompletedFrom s ((a.begin i).ticks es) .none (d + 1) ∧ ((a.begin i).ticks es).present = a.present ∧
      ((a.begin i).ticks es).temp = s.temp := by
  subst hd
  have hlast := h.completed i (levelAt es) (script s.params i)
  rw [← h.params] at hl hp hes hlast ⊢
  rw [State.begin_ticks hl hp hes le_rfl, runTo_duration]
  obtain ⟨-, hpres, -, -, htemp, -⟩ :=
    whole_frame (levelAt es) (script a.params i) (a.begin i).advanceTime
  refine ⟨rfl, hlast, ?_, ?_⟩
  · rw [State.complete_present, hpres]
    rfl
  · rw [State.complete_temp, htemp]
    exact h.temp

/-- An operation without a latch and without a sample keeps RXDATA and adds no sample. -/
theorem AcceptedFrom.ticks_no_result (h : AcceptedFrom s a) (hl : duration (script s.params i) ≤ 65535)
    (hp : (script s.params i).all plain = true) {es : List Bool} {d : Nat} (hd : duration (script s.params i) = d)
    (hes : es.length = d + 1) (hlatch : (script s.params i).all (fun b => !latches b) = true)
    (hs : (script s.params i).all noSample = true) :
    ((a.begin i).ticks es).rxdata = s.rxdata ∧ Sampled s ((a.begin i).ticks es) [] := by
  obtain ⟨hticks, -⟩ := h.ticks_completed hl hp hd hes
  rw [hticks]
  constructor
  · rw [State.complete_rxdata, whole_rxdata hlatch]
    exact h.rxdata
  · have hstart : Sampled s (a.begin i).advanceTime [] := ⟨[], h.history, rfl⟩
    exact (hstart.trans (Sampled.whole hs _ _)).trans (Sampled.complete _ _)

end

theorem isBusData_begin {s : State} (hidle : s.fsm = .idle) (hopen : s.gate = false ∨ s.present = true) {i : Instr}
    (hi : isBusData i = true) : exec i s = .next (s.clearFlags.begin i) := by
  have hgate : s.clearFlags.gateOpen = true := State.gateOpen_eq_true.mpr hopen
  rw [exec_idle hidle, State.accept_busData_open hi hgate]

/-- Settles O35: DELAY's pseudocode is a release, which changes nothing, and a wait. -/
theorem delayRunsItsTicks : Obligations.DelayRunsItsTicks := by
  intro s n hidle hout hn
  have hs := AcceptedFrom.clearFlags s
  have hexec : exec (.delay n) s = .next (s.clearFlags.begin (.delay n)) := by
    rw [exec_idle hidle, State.accept, if_neg hn]
  have hreleased : (s.clearFlags.begin (.delay n)).advanceTime.out = .released := hout
  have hle : duration (script s.params (.delay n)) ≤ 65535 := by
    simp only [script, delayScript, duration]
    omega
  refine ⟨_, hexec, fun es => ⟨fun hes => ?_, fun hes => ?_⟩⟩
  · cases es with
    | nil => exact ⟨rfl, hout⟩
    | cons e es =>
      obtain ⟨ht, hf⟩ := hs.ticks_running (i := .delay n) (es := e :: es) hle rfl rfl hes
      refine ⟨hf, ?_⟩
      rw [ht]
      exact runTo_released rfl _ _ hreleased
  · obtain ⟨ht, hc, hpres, htemp⟩ := hs.ticks_completed (i := .delay n) hle rfl rfl hes
    obtain ⟨hrx, -⟩ := hs.ticks_no_result (i := .delay n) hle rfl rfl hes rfl rfl
    refine ⟨hc, hpres, hrx, htemp, ?_⟩
    rw [ht, script, delayScript, whole_release, State.release_released hreleased, whole, whole,
      State.complete_released (s := (s.clearFlags.begin (.delay n)).advanceTime.later n.toNat) hreleased]
    rfl

/-- Settles O40: RESET is one slot. -/
theorem resetPulseWaveform : Obligations.ResetPulseWaveform := by
  intro s hl hidle hout
  have hs := AcceptedFrom.clearPresent s
  have hle := duration_script_le hl .reset
  refine ⟨_, exec_idle hidle .reset, fun es => ?_⟩
  have slot {o : Nat} (hes : es.length = o + 1) (ho : o < s.params.tRstLow + s.params.tRstWait) :=
    hs.ticks_running (i := .reset) hle rfl hes ho
  refine ⟨fun o hes ho => ?_, fun o hes hlo ho => ?_, fun hes => ?_⟩
  · obtain ⟨ht, hf⟩ := slot hes (by omega)
    refine ⟨hf, ?_⟩
    rw [State.accept, ht, script, resetScript, runTo_slot_out rfl, if_pos ho]
  · obtain ⟨ht, hf⟩ := slot hes ho
    refine ⟨hf, ?_⟩
    rw [State.accept, ht, script, resetScript, runTo_slot_out rfl, if_neg (by omega)]
  · obtain ⟨-, hc, hpres, htemp⟩ := hs.ticks_completed (i := .reset) hle rfl rfl hes
    obtain ⟨hrx, hsam⟩ := hs.ticks_no_result (i := .reset) hle rfl rfl hes rfl rfl
    exact ⟨hc, hpres, hrx, htemp, hsam⟩

/-- Settles O36: WRITE_BIT is one slot. -/
theorem writeBitWaveform : Obligations.WriteBitWaveform := by
  refine ⟨by decide, fun s b low high hl hidle hout hopen hshape => ⟨?_, _, isBusData_begin hidle hopen rfl, fun es => ?_⟩⟩
  · rintro rfl
    obtain ⟨rfl, -⟩ := Prod.mk.inj hshape
    unfold Config.Params.Legal at hl
    omega
  have hs := AcceptedFrom.clearFlags s
  have hle := duration_script_le hl (.writeBit b)
  have hscript : script s.params (.writeBit b) = [.driveLow, .wait low, .release, .wait high] := by
    have h : s.params.writeShape b = (low, high) := hshape.symm
    rw [script, writeBitScript, writeSlot, h]
  have hd : duration (script s.params (.writeBit b)) = low + high := by rw [hscript]; rfl
  have hp : (script s.params (.writeBit b)).all plain = true := by rw [hscript]; rfl
  have slot {o : Nat} (hes : es.length = o + 1) (ho : o < low + high) := hs.ticks_running hle hp hes (by rw [hd]; exact ho)
  refine ⟨fun o hes ho => ?_, fun o hes hlo ho => ?_, fun hes => ?_⟩
  · obtain ⟨ht, hf⟩ := slot hes (by omega)
    refine ⟨hf, ?_⟩
    rw [ht, hscript, runTo_slot_out rfl, if_pos ho]
  · obtain ⟨ht, hf⟩ := slot hes ho
    refine ⟨hf, ?_⟩
    rw [ht, hscript, runTo_slot_out rfl, if_neg (by omega)]
  · obtain ⟨-, hc, hpres, htemp⟩ := hs.ticks_completed hle hp hd hes
    obtain ⟨hrx, hsam⟩ := hs.ticks_no_result hle hp hd hes (by rw [hscript]; rfl) (by rw [hscript]; rfl)
    exact ⟨hc, hpres, hrx, htemp, hsam⟩

/-! ### A read slot up to its sample (41_bit_slots.md R122) -/

/-- The bit of a read slot is the level of the released line at its sample, which the history gains. -/
theorem whole_readSlot (env : Nat → Bool) (p : Config.Params) (s : State) :
    (whole env (readSlotToSample p) s).out = .released ∧
    (whole env (readSlotToSample p) s).bit = env (p.tRLow + p.tRSample) ∧
    (whole env (readSlotToSample p) s).sh = s.sh ∧
    Sampled s (whole env (readSlotToSample p) s)
      [(s.time + BitVec.ofNat 32 (p.tRLow + p.tRSample), env (p.tRLow + p.tRSample))] := by
  have hout := whole_slot_out (m := [.wait p.tRSample]) rfl env p.tRLow s
  obtain ⟨-, -, -, -, -, htime, -⟩ := whole_frame env [.driveLow, .wait p.tRLow, .release, .wait p.tRSample] s
  have hnone := Sampled.whole (l := [.driveLow, .wait p.tRLow, .release, .wait p.tRSample]) rfl env s
  have hsplit : whole env (readSlotToSample p) s =
      (whole env [.driveLow, .wait p.tRLow, .release, .wait p.tRSample] s).sampleBit
        (env (p.tRLow + p.tRSample)) := rfl
  rw [hsplit]
  refine ⟨hout, State.level_released hout _, ?_, ?_⟩
  · simp [whole, effect, State.later]
  · refine hnone.trans ⟨[.sample _ _], rfl, ?_⟩
    rw [htime, State.level_released hout]
    rfl

/-- Settles O37: READ_BIT is one read slot, whose sample is latched at the end. -/
theorem readBitSamplesOnce : Obligations.ReadBitSamplesOnce := by
  intro s low d hl hidle hout hopen hlow hd
  subst hlow
  have hs := AcceptedFrom.clearFlags s
  have hle := duration_script_le hl .readBit
  have hdur : duration (script s.params .readBit) = d := by
    rw [hd, script, readBitScript, duration_append]
    simp [readSlotToSample, duration]
  have slot {es : List Bool} {o : Nat} (hes : es.length = o + 1) (ho : o < d) :=
    hs.ticks_running (i := .readBit) hle rfl hes (by rw [hdur]; exact ho)
  refine ⟨?_, _, isBusData_begin hidle hopen rfl, fun es => ?_⟩
  · unfold Config.Params.Legal at hl
    omega
  refine ⟨fun o hes ho => ?_, fun o hes hlo ho => ?_, fun hes => ?_, fun b hes hb => ?_⟩
  · obtain ⟨ht, hf⟩ := slot hes (by omega)
    refine ⟨hf, ?_⟩
    rw [ht, script, readBitScript, readSlotToSample, List.cons_append, List.cons_append, List.cons_append,
      runTo_slot_out rfl, if_pos ho]
  · obtain ⟨ht, hf⟩ := slot hes ho
    refine ⟨hf, ?_⟩
    rw [ht, script, readBitScript, readSlotToSample, List.cons_append, List.cons_append, List.cons_append,
      runTo_slot_out rfl, if_neg (by omega)]
  · cases es with
    | nil => rfl
    | cons e es =>
      obtain ⟨ht, -⟩ := slot (es := e :: es) rfl (by simpa using hes)
      have hpre : script s.params .readBit = (readSlotToSample s.params ++ [.wait s.params.tRPad]) ++ [.latchBit] := rfl
      have hlast : duration (readSlotToSample s.params ++ [.wait s.params.tRPad]) = d := hdur
      rw [ht, hpre, runTo_append_of_lt _ _ _ (by rw [hlast]; exact hes), runTo_rxdata rfl]
      rfl
  · obtain ⟨ht, hc, hpres, htemp⟩ := hs.ticks_completed (i := .readBit) hle rfl hdur hes
    obtain ⟨hrel, hbit, -, hsam⟩ := whole_readSlot (levelAt es) s.params
      (s.clearFlags.begin .readBit).advanceTime
    have hlatch : whole (levelAt es) (script s.params .readBit)
        (s.clearFlags.begin .readBit).advanceTime =
        ((whole (levelAt es) (readSlotToSample s.params)
          (s.clearFlags.begin .readBit).advanceTime).later s.params.tRPad).latchBit := rfl
    rw [levelAt_eq hb] at hbit hsam
    refine ⟨hc, ?_, hpres, htemp, ?_⟩
    · have hrx : ((s.clearFlags.begin .readBit).ticks es).rxdata = bitByte b := by
        rw [ht, State.complete_rxdata, hlatch, ← hbit]
        rfl
      rw [State.regRead, hrx]
      cases b <;> rfl
    · rw [ht, hlatch]
      have hstart : Sampled s (s.clearFlags.begin .readBit).advanceTime [] := .of_history_eq rfl
      exact ((hstart.trans hsam).trans (.of_history_eq (by simp))).trans (Sampled.complete _ _)

end Sys2Proof.Machine

namespace Sys2Proof.Machine

/-! ### The turns of the framer (42_byte_framer.md R141, R143) -/

/-- A turn among turns. -/
theorem flatMap_range_split (f : Nat → List Action) {i n : Nat} (hi : i < n) :
    ∃ rest, (List.range n).flatMap f = (List.range i).flatMap f ++ (f i ++ rest) := by
  obtain ⟨m, rfl⟩ := Nat.exists_eq_add_of_lt hi
  refine ⟨((List.range m).map (i + 1 + ·)).flatMap f, ?_⟩
  rw [show i + m + 1 = i + 1 + m by omega, List.range_add, List.range_succ]
  simp

theorem slotLength_eq (p : Config.Params) (b : Bool) : slotLength p b = p.writeSlot b := by
  cases b <;> rfl

theorem duration_writeTurns (p : Config.Params) (d : Byte) (n : Nat) :
    duration ((List.range n).flatMap (writeTurn p d)) = writeSlotStart p d n := by
  rw [duration_flatMap, writeSlotStart]
  simp only [duration_writeTurn, slotLength_eq]
  rfl

theorem duration_writeByteScript (p : Config.Params) (d : Byte) :
    duration (writeByteScript p d) = writeSlotStart p d 8 := duration_writeTurns p d 8

theorem plain_writeByteScript (p : Config.Params) (d : Byte) : (writeByteScript p d).all plain = true := by
  simp [writeByteScript, writeTurn, writeSlot, plain]

theorem noSample_writeByteScript (p : Config.Params) (d : Byte) : (writeByteScript p d).all noSample = true := by
  simp [writeByteScript, writeTurn, writeSlot, noSample]

/-- The line in the turn of index i. -/
theorem runTo_writeTurn_out (env : Nat → Bool) (p : Config.Params) (d : Byte) (i o : Nat) (s : State) :
    (runTo env (writeTurn p d i) o s).out = if o < (p.writeShape (dataBit d i)).1 then .low else .released :=
  runTo_slot_out rfl env _ o { s with bi := .ofNat 3 i }

/-- Settles O38: the turns follow one another, each a slot and its gap. -/
theorem writeByteWaveform : Obligations.WriteByteWaveform := by
  intro s d hl hidle hout hopen
  have hs := AcceptedFrom.clearFlags s
  have hle := duration_script_le hl (.writeByte d)
  have hp := plain_writeByteScript s.params d
  have hd := duration_writeByteScript s.params d
  refine ⟨_, isBusData_begin hidle hopen rfl, fun es => ⟨fun i o low high hi hshape ho hes => ?_, fun hes => ?_⟩⟩
  · have hlow : s.params.writeShape (dataBit d i) = (low, high) := hshape.symm
    obtain ⟨rest, hsplit⟩ := flatMap_range_split (writeTurn s.params d) hi
    have hturn : o < duration (writeTurn s.params d i) := by
      rw [duration_writeTurn, Config.Params.writeSlot, hlow]
      exact ho
    have hlt : writeSlotStart s.params d i + o < duration (script s.params (.writeByte d)) := by
      rw [script, writeByteScript, hsplit, duration_append, duration_append, duration_writeTurns]
      omega
    obtain ⟨ht, hf⟩ := hs.ticks_running (i := .writeByte d) hle hp hes hlt
    refine ⟨hf, ?_⟩
    rw [ht, script, writeByteScript, hsplit, ← duration_writeTurns, runTo_append_add, runTo_append_of_lt _ _ _ hturn,
      runTo_writeTurn_out, hlow]
  · obtain ⟨-, hc, hpres, htemp⟩ := hs.ticks_completed (i := .writeByte d) hle hp hd hes
    obtain ⟨hrx, hsam⟩ := hs.ticks_no_result (i := .writeByte d) hle hp hd hes
      (script_latches_none s.params nofun nofun) (noSample_writeByteScript s.params d)
    exact ⟨hc, hpres, hrx, htemp, hsam⟩

/-! ### READ_BYTE (42_byte_framer.md R142, R143) -/

theorem plain_readByteScript (p : Config.Params) : (readByteScript p).all plain = true := by
  simp [readByteScript, readTurn, readSlotToSample, plain]

theorem duration_readByteScript (p : Config.Params) : duration (readByteScript p) = 8 * readTurnLength p := by
  rw [readByteScript, List.cons_append, duration, duration_append, duration_readTurns]
  rfl

/-- Bit j of a bit shifted to i. -/
theorem getLsbD_bitByte_shift (b : Bool) {i j : Nat} (hj : j < 8) :
    (bitByte b <<< i).getLsbD j = (decide (j = i) && b) := by
  simp only [bitByte, BitVec.getLsbD_shiftLeft, BitVec.getLsbD_setWidth, BitVec.getLsbD_ofBool]
  obtain hlt | rfl | hgt := Nat.lt_trichotomy j i
  · simp [hlt, hlt.ne]
  · simp [hj]
  · have hpos : j - i ≠ 0 := by omega
    simp [hpos, hgt.ne']

/-- A turn puts the level at its sample into SH, and into the history. -/
theorem whole_readTurn (env : Nat → Bool) (p : Config.Params) (i : Nat) (s : State) :
    (whole env (readTurn p i) s).sh = s.sh ||| bitByte (env (p.tRLow + p.tRSample)) <<< i ∧
    Sampled s (whole env (readTurn p i) s)
      [(s.time + BitVec.ofNat 32 (p.tRLow + p.tRSample), env (p.tRLow + p.tRSample))] := by
  obtain ⟨-, hbit, hsh, hsam⟩ := whole_readSlot env p { s with bi := .ofNat 3 i }
  have hturn : whole env (readTurn p i) s =
      (((whole env (readSlotToSample p) { s with bi := .ofNat 3 i }).accumulate i).later p.tRPad).later p.tRbRec := rfl
  rw [hturn]
  constructor
  · rw [State.later_sh, State.later_sh, State.accumulate_sh, hsh, hbit]
  · have hstart : Sampled s { s with bi := .ofNat 3 i } [] := .of_history_eq rfl
    exact (hstart.trans hsam).trans (.of_history_eq (by simp))

/-- The turns before the n-th put the levels at their samples into SH, each at its bit, and into the history. -/
theorem whole_readTurns (env : Nat → Bool) (p : Config.Params) (n : Nat) (s : State) :
    (∀ j, j < 8 → (whole env ((List.range n).flatMap (readTurn p)) s).sh.getLsbD j =
      (s.sh.getLsbD j || decide (j < n) && env (readSampleOffset p j))) ∧
    Sampled s (whole env ((List.range n).flatMap (readTurn p)) s)
      ((List.range n).map fun i => (s.time + BitVec.ofNat 32 (readSampleOffset p i), env (readSampleOffset p i))) := by
  induction n with
  | zero => exact ⟨by simp [whole], .refl s⟩
  | succ n ih =>
    obtain ⟨hsh, hsam⟩ := ih
    have hoff : duration ((List.range n).flatMap (readTurn p)) + (p.tRLow + p.tRSample) = readSampleOffset p n := by
      rw [duration_readTurns, readSampleOffset, Nat.add_assoc]
    obtain ⟨-, -, -, -, -, htime, -⟩ := whole_frame env ((List.range n).flatMap (readTurn p)) s
    obtain ⟨hsh', hsam'⟩ := whole_readTurn (fun k => env (duration ((List.range n).flatMap (readTurn p)) + k)) p n
      (whole env ((List.range n).flatMap (readTurn p)) s)
    rw [hoff] at hsh' hsam'
    rw [htime, BitVec.add_assoc, ← BitVec.ofNat_add, hoff] at hsam'
    rw [List.range_succ, List.flatMap_append, List.flatMap_singleton, whole_append]
    refine ⟨fun j hj => ?_, ?_⟩
    · rw [hsh', BitVec.getLsbD_or, hsh j hj, getLsbD_bitByte_shift _ hj]
      obtain hlt | rfl | hgt := Nat.lt_trichotomy j n
      · simp [hlt, hlt.ne, Nat.lt_succ_of_lt hlt]
      · simp
      · have hge : ¬j < n + 1 := by omega
        simp [hgt.ne', hgt.not_gt, hge]
    · rw [List.map_append]
      exact hsam.trans hsam'

/-- Before its completion a READ_BYTE has latched nothing. -/
theorem runTo_readByteScript_rxdata (env : Nat → Bool) (p : Config.Params) {k : Nat}
    (hk : k < 8 * readTurnLength p) (s : State) : (runTo env (readByteScript p) k s).rxdata = s.rxdata := by
  have hlt : k < duration (.clearSh :: (List.range 8).flatMap (readTurn p)) := by
    rwa [duration, duration_readTurns]
  rw [readByteScript, runTo_append_of_lt _ _ _ hlt, runTo_rxdata]
  simp [latches, readTurn, readSlotToSample]

theorem runTo_readTurn_out (env : Nat → Bool) (p : Config.Params) (i o : Nat) (s : State) :
    (runTo env (readTurn p i) o s).out = if o < p.tRLow then .low else .released :=
  runTo_slot_out (m := [.wait p.tRSample, .sample, .accumulate i, .wait p.tRPad, .wait p.tRbRec]) rfl env p.tRLow o
    { s with bi := .ofNat 3 i }

/-- The line in the turn of index i. -/
theorem runTo_readByteScript_out (env : Nat → Bool) (p : Config.Params) {i o : Nat} (hi : i < 8)
    (ho : o < readTurnLength p) (s : State) :
    (runTo env (readByteScript p) (i * readTurnLength p + o) s).out = if o < p.tRLow then .low else .released := by
  obtain ⟨rest, hsplit⟩ := flatMap_range_split (readTurn p) hi
  rw [readByteScript, hsplit, List.cons_append, runTo_clearSh, List.append_assoc, ← duration_readTurns,
    runTo_append_add, List.append_assoc, runTo_append_of_lt _ _ _ (by rwa [duration_readTurn]), runTo_readTurn_out]

/-- At its end a READ_BYTE has put the eight samples into RXDATA and into the history. -/
theorem whole_readByteScript (env : Nat → Bool) (p : Config.Params) (s : State) :
    (∀ j, j < 8 → (whole env (readByteScript p) s).rxdata.getLsbD j = env (readSampleOffset p j)) ∧
    Sampled s (whole env (readByteScript p) s)
      ((List.range 8).map fun i => (s.time + BitVec.ofNat 32 (readSampleOffset p i), env (readSampleOffset p i))) := by
  obtain ⟨hsh, hsam⟩ := whole_readTurns env p 8 { s with sh := 0 }
  have hsplit : whole env (readByteScript p) s =
      (whole env ((List.range 8).flatMap (readTurn p)) { s with sh := 0 }).latchByte := by
    rw [readByteScript, List.cons_append, whole_clearSh, whole_append, whole_latchByte, whole]
  have hstart : Sampled s { s with sh := 0 } [] := .of_history_eq rfl
  rw [hsplit]
  refine ⟨fun j hj => ?_, (hstart.trans hsam).trans (.of_history_eq (State.latchByte_history _))⟩
  rw [State.latchByte_rxdata, hsh j hj]
  simp [hj]

/-- Settles O39: the turns follow one another, and the byte latched at the end is made of their samples. -/
theorem readByteAssemblesSamples : Obligations.ReadByteAssemblesSamples := by
  intro s hl hidle hout hopen
  have hs := AcceptedFrom.clearFlags s
  have hle := duration_script_le hl .readByte
  have hp := plain_readByteScript s.params
  have hd := duration_readByteScript s.params
  refine ⟨_, isBusData_begin hidle hopen rfl, fun es => ⟨fun i o hi ho hes => ?_, fun hes => ?_⟩⟩
  · have hlt : i * readTurnLength s.params + o < 8 * readTurnLength s.params := by
      have hturn : (i + 1) * readTurnLength s.params ≤ 8 * readTurnLength s.params := Nat.mul_le_mul_right _ hi
      rw [Nat.add_mul] at hturn
      omega
    obtain ⟨ht, hf⟩ := hs.ticks_running (i := .readByte) hle hp hes (by rw [script, hd]; exact hlt)
    refine ⟨hf, ?_, ?_⟩
    · rw [ht, script, runTo_readByteScript_out _ _ hi ho]
    · rw [ht, script, runTo_readByteScript_rxdata _ _ hlt]
      rfl
  · obtain ⟨ht, hc, hpres, htemp⟩ := hs.ticks_completed (i := .readByte) hle hp hd hes
    obtain ⟨hbits, hsam⟩ := whole_readByteScript (levelAt es) s.params (s.clearFlags.begin .readByte).advanceTime
    refine ⟨hc, fun i b hi hb => ?_, fun k hk => ?_, hpres, htemp, ?_⟩
    · rw [ht, State.regRead, BitVec.getLsbD_setWidth, State.complete_rxdata, script, hbits i hi, levelAt_eq hb]
      simp
      omega
    · rw [State.regRead, BitVec.getLsbD_setWidth, BitVec.getLsbD_of_ge _ k hk, Bool.and_false]
    · rw [ht]
      have hstart : Sampled s (s.clearFlags.begin .readByte).advanceTime [] := .of_history_eq rfl
      exact (hstart.trans hsam).trans (Sampled.complete _ _)

end Sys2Proof.Machine

namespace Sys2Proof.Machine

/-! ### What a WRITE_BYTE puts on the wire (42_byte_framer.md R146) -/

/-- From the state s to the state u the changes of OUT are l, in time order. -/
def Edged (s u : State) (l : List (Word × LineOut)) : Prop :=
  ∃ new, u.history = new ++ s.history ∧ edgesOf new.reverse = l

theorem Edged.of_history_eq {s t : State} (h : t.history = s.history) : Edged s t [] := ⟨[], h, rfl⟩

theorem Edged.trans {s t u : State} {l m : List (Word × LineOut)} (h : Edged s t l) (k : Edged t u m) :
    Edged s u (l ++ m) := by
  obtain ⟨a, ha, rfl⟩ := h
  obtain ⟨b, hb, rfl⟩ := k
  refine ⟨b ++ a, by rw [hb, ha, List.append_assoc], ?_⟩
  rw [List.reverse_append, edgesOf, List.filterMap_append]
  rfl

/-- The Low run of len ticks from t on. -/
def lowRun (t : Word) (len : Nat) : List (Word × LineOut) := [(t, .low), (t + BitVec.ofNat 32 len, .released)]

/-- A turn is one Low run, and leaves the line released. -/
theorem whole_writeTurn_edges (env : Nat → Bool) (p : Config.Params) (d : Byte) (i : Nat) {s : State}
    (hs : s.out = .released) :
    (whole env (writeTurn p d i) s).out = .released ∧
      Edged s (whole env (writeTurn p d i) s) (lowRun s.time (p.writeShape (dataBit d i)).1) := by
  refine ⟨whole_slot_out rfl env _ { s with bi := .ofNat 3 i }, ?_⟩
  have hdrive : State.driveLow { s with bi := .ofNat 3 i } =
      { s with bi := .ofNat 3 i, out := .low, history := .out s.time .low :: s.history } :=
    State.setOut_change (by simp [hs])
  have hturn : whole env (writeTurn p d i) s =
      (((State.driveLow { s with bi := .ofNat 3 i }).later (p.writeShape (dataBit d i)).1).release.later
        (p.writeShape (dataBit d i)).2).later p.tWbGap := rfl
  refine ⟨[.out (s.time + BitVec.ofNat 32 (p.writeShape (dataBit d i)).1) .released, .out s.time .low], ?_, rfl⟩
  rw [hturn, hdrive, State.later_history, State.later_history, State.release, State.setOut_change (by simp)]
  rfl

/-- The turns before the n-th are n Low runs, each from its turn's start on. -/
theorem whole_writeTurns_edges (env : Nat → Bool) (p : Config.Params) (d : Byte) (n : Nat) {s : State}
    (hs : s.out = .released) :
    (whole env ((List.range n).flatMap (writeTurn p d)) s).out = .released ∧
      Edged s (whole env ((List.range n).flatMap (writeTurn p d)) s) ((List.range n).flatMap fun i =>
        lowRun (s.time + BitVec.ofNat 32 (writeSlotStart p d i)) (p.writeShape (dataBit d i)).1) := by
  induction n with
  | zero => exact ⟨hs, .of_history_eq rfl⟩
  | succ n ih =>
    obtain ⟨hout, hedges⟩ := ih
    obtain ⟨-, -, -, -, -, htime, -⟩ := whole_frame env ((List.range n).flatMap (writeTurn p d)) s
    obtain ⟨hout', hedges'⟩ := whole_writeTurn_edges
      (fun k => env (duration ((List.range n).flatMap (writeTurn p d)) + k)) p d n hout
    rw [htime, duration_writeTurns] at hedges'
    rw [List.range_succ, List.flatMap_append, List.flatMap_singleton, whole_append, List.flatMap_append,
      List.flatMap_singleton]
    rw [duration_writeTurns] at hout' ⊢
    exact ⟨hout', hedges.trans hedges'⟩

/-- A device on the line can measure the Low runs. -/
theorem lowRuns_flatMap_lowRun (start len : Nat → Nat) (t : Word) {l : List Nat} (h : ∀ i ∈ l, len i < 2 ^ 32) :
    lowRuns (l.flatMap fun i => lowRun (t + BitVec.ofNat 32 (start i)) (len i)) = l.map len := by
  have released (u : Word) (m : List (Word × LineOut)) : lowRuns ((u, .released) :: m) = lowRuns m := by
    cases m <;> rfl
  induction l with
  | nil => rfl
  | cons i l ih =>
    obtain ⟨hi, hl⟩ := List.forall_mem_cons.mp h
    have hlen (u : Word) : (u + BitVec.ofNat 32 (len i) - u).toNat = len i := by
      rw [BitVec.add_comm, BitVec.add_sub_cancel, BitVec.toNat_ofNat, Nat.mod_eq_of_lt hi]
    rw [List.flatMap_cons, lowRun, List.cons_append, List.cons_append, List.nil_append, lowRuns, released, ih hl, hlen,
      List.map_cons]

/-- A line that can tell the two Low times apart answers with the bits sent. -/
theorem loopbackAnswer_eq {p : Config.Params} (hne : p.tW1Low ≠ p.tW0Low) (d : Byte) {sent : List Event}
    (h : lowRuns (edgesOf sent.reverse) = (List.range 8).map fun i => (p.writeShape (dataBit d i)).1) {k : Nat}
    (hk : k < 8) : loopbackAnswer p sent k = d.getLsbD k := by
  have hget : ((List.range 8).map fun i => (p.writeShape (dataBit d i)).1)[k]? = some (p.writeShape (d.getLsbD k)).1 := by
    simp [hk, dataBit]
  rw [loopbackAnswer, h, hget]
  cases d.getLsbD k <;> simp [Config.Params.writeShape, hne.symm]

/-- On the wire a WRITE_BYTE is eight Low runs, of the Low times of its bits. -/
theorem whole_writeByteScript_edges (env : Nat → Bool) {p : Config.Params} (hl : p.Legal) (d : Byte) {s : State}
    (hs : s.out = .released) :
    (whole env (writeByteScript p d) s).out = .released ∧
      ∃ sent, (whole env (writeByteScript p d) s).history = sent ++ s.history ∧
        lowRuns (edgesOf sent.reverse) = (List.range 8).map fun i => (p.writeShape (dataBit d i)).1 := by
  obtain ⟨hout, sent, hsent, hedges⟩ := whole_writeTurns_edges env p d 8 hs
  refine ⟨hout, sent, hsent, ?_⟩
  rw [hedges, lowRuns_flatMap_lowRun]
  intro i _
  have hbound := Config.Params.writeSlot_bound hl (dataBit d i)
  rw [Config.Params.writeSlot] at hbound
  omega

/-- Settles O43: the Low runs on the wire carry the byte, the line answers with its bits, and READ_BYTE assembles them. -/
theorem loopbackReproducesTheByte : Obligations.LoopbackReproducesTheByte := by
  intro s d hl hne hidle hout hopen
  refine ⟨_, isBusData_begin hidle hopen rfl, fun ws hws => ?_⟩
  have hs := AcceptedFrom.clearFlags s
  obtain ⟨ht, hc, hpres, -⟩ := hs.ticks_completed (i := .writeByte d) (duration_script_le hl _)
    (plain_writeByteScript s.params d) (duration_writeByteScript s.params d) hws
  obtain ⟨hrel, sent, hsent, hruns⟩ := whole_writeByteScript_edges (levelAt ws) hl d
    (s := (s.clearFlags.begin (.writeByte d)).advanceTime) hout
  refine ⟨sent, ?_, by rw [hruns, List.length_map, List.length_range], ?_⟩
  · rw [ht, script, State.complete_history, State.release_released hrel, hsent]
    rfl
  obtain ⟨v, hv, hread⟩ := readByteAssemblesSamples ((s.clearFlags.begin (.writeByte d)).ticks ws)
    (by rw [hc.params]; exact hl) hc.fsm hc.out (by rw [hc.gate, hpres]; exact hopen)
  rw [hc.params] at hread
  refine ⟨v, hv, fun rs hrs hanswer => ?_⟩
  obtain ⟨hdone, hbits, hzeros, -⟩ := (hread rs).2 hrs
  refine ⟨hdone.fsm, hdone.err, BitVec.eq_of_getLsbD_eq fun k hk => ?_⟩
  by_cases hk8 : k < 8
  · rw [hbits k _ hk8 (hanswer k hk8), loopbackAnswer_eq hne d hruns hk8]
    simp [hk]
  · rw [hzeros k (by omega)]
    simp [BitVec.getLsbD_of_ge d k (by omega)]

end Sys2Proof.Machine

namespace Sys2Proof.Machine

/-! ### At most one sample a tick (20_memory.md R77) -/

/-- A pseudocode in which no tick takes two samples, or drives the line after one, and each sample finds the line
released; o is the line before it, `taken` says that this tick has taken its sample. -/
def sampleSafe : List Action → LineOut → Bool → Bool
  | [], _, _ => true
  | .wait n :: l, o, taken => sampleSafe l o (taken && n == 0)
  | .driveLow :: l, _, taken => !taken && sampleSafe l .low taken
  | .release :: l, _, taken => sampleSafe l .released taken
  | .sample :: l, o, taken => o == .released && !taken && sampleSafe l o true
  | .detect :: _, o, taken => o == .released && !taken
  | .setBi _ :: l, o, taken => sampleSafe l o taken
  | .clearSh :: l, o, taken => sampleSafe l o taken
  | .accumulate _ :: l, o, taken => sampleSafe l o taken
  | .latchBit :: l, o, taken => sampleSafe l o taken
  | .latchByte :: l, o, taken => sampleSafe l o taken
  | .detectNext :: l, o, taken => sampleSafe l o taken

/-- In a tick from s to u at most one sample is taken, none if one was `taken` before, and with the line released. -/
def OneSample (e taken : Bool) (s u : State) : Prop :=
  ∃ new, u.history = new ++ s.history ∧
    (∀ x ∈ new, (∃ o, x = .out s.time o) ∨ x = .sample s.time e) ∧
    (new.filter fun x => x = .sample s.time e).length + taken.toNat ≤ 1 ∧
    (taken = true ∨ .sample s.time e ∈ new → u.out = .released)

/-- A state that differs in neither TIME nor the history. -/
theorem OneSample.of_history_eq {e taken : Bool} {s t u : State} (ht : t.time = s.time) (hh : t.history = s.history)
    (h : OneSample e taken t u) : OneSample e taken s u := by
  rwa [OneSample, ht, hh] at h

/-- A change of the line before. -/
theorem OneSample.of_setOut {e taken : Bool} {s u : State} {o : LineOut} (h : OneSample e taken (s.setOut o) u) :
    OneSample e taken s u := by
  by_cases hout : s.out = o
  · rwa [State.setOut_same hout] at h
  · rw [State.setOut_change hout] at h
    obtain ⟨new, hh, hev, hcount, hrel⟩ := h
    refine ⟨new ++ [.out s.time o], by simpa using hh, fun x hx => ?_, ?_, fun hs => hrel ?_⟩
    · obtain hx | hx := List.mem_append.mp hx
      · exact hev x hx
      · exact .inl ⟨o, List.mem_singleton.mp hx⟩
    · simpa using hcount
    · simpa using hs

/-- The sample itself. -/
theorem OneSample.of_sample {e : Bool} {s t u : State} (ht : t.time = s.time)
    (hh : t.history = .sample s.time e :: s.history) (h : OneSample e true t u) : OneSample e false s u := by
  obtain ⟨new, hnew, hev, hcount, hrel⟩ := h
  rw [ht] at hev hcount
  rw [hh] at hnew
  refine ⟨new ++ [.sample s.time e], by simpa using hnew, fun x hx => ?_, ?_, fun _ => hrel (.inl rfl)⟩
  · obtain hx | hx := List.mem_append.mp hx
    · exact hev x hx
    · exact .inr (List.mem_singleton.mp hx)
  · simpa using hcount

/-- Nothing more happens in the tick. -/
theorem OneSample.stop {e taken : Bool} {s u : State} (hh : u.history = s.history)
    (hout : taken = true → u.out = .released) : OneSample e taken s u :=
  ⟨[], hh, nofun, by cases taken <;> simp, fun h => hout (h.resolve_right List.not_mem_nil)⟩

theorem OneSample.complete {e taken : Bool} (s : State) (c : ErrCode) : OneSample e taken s (s.complete c) :=
  .of_setOut (o := .released) (.stop rfl fun _ => State.complete_out s c)

/-- Running a pseudocode of which the rest of this tick is safe. -/
theorem runActions_oneSample {l : List Action} (hn : .detectNext ∉ l) (e : Bool) {s : State} {taken : Bool}
    (h : sampleSafe l s.out taken = true) (ht : taken = true → s.out = .released) :
    OneSample e taken s (runActions e l s) := by
  induction l generalizing s taken with
  | nil => exact .complete s .none
  | cons a l ih =>
    obtain ⟨ha, hnl⟩ := not_or.mp (List.mem_cons.not.mp hn)
    cases a with
    | wait n =>
      by_cases h0 : n = 0
      · subst h0
        exact ih hnl (by simpa [sampleSafe] using h) ht
      · rw [runActions, if_neg h0]
        exact .stop rfl ht
    | driveLow =>
      obtain ⟨hno, hl⟩ := Bool.and_eq_true_iff.mp h
      exact .of_setOut (ih hnl (s := s.driveLow) (by simpa using hl) (by simpa using hno))
    | release => exact .of_setOut (ih hnl (s := s.release) (by rwa [State.release_out])
        fun _ => State.release_out s)
    | sample =>
      simp only [sampleSafe, Bool.and_eq_true, beq_iff_eq, Bool.not_eq_true'] at h
      obtain ⟨⟨hout, rfl⟩, hl⟩ := h
      exact .of_sample (t := s.sampleBit e) rfl (by simp [State.level_released hout]) (ih hnl hl fun _ => hout)
    | detect =>
      simp only [sampleSafe, Bool.and_eq_true, beq_iff_eq, Bool.not_eq_true'] at h
      obtain ⟨hout, rfl⟩ := h
      obtain ⟨ph, pk, hd⟩ := s.detectFirst_cases e
      rw [runActions, hd]
      exact .of_sample (t := s.noteSample e) rfl (by simp [State.level_released hout]) (.stop rfl fun _ => hout)
    | detectNext => exact absurd rfl ha
    | setBi i => exact .of_history_eq rfl rfl (ih hnl (s := { s with bi := .ofNat 3 i }) h ht)
    | clearSh => exact .of_history_eq rfl rfl (ih hnl (s := { s with sh := 0 }) h ht)
    | accumulate i => exact .of_history_eq rfl rfl (ih hnl (s := s.accumulate i) h ht)
    | latchBit => exact .of_history_eq rfl rfl (ih hnl (s := s.latchBit) h ht)
    | latchByte => exact .of_history_eq rfl rfl (ih hnl (s := s.latchByte) h ht)

/-- A later turn of the detector takes one sample or none. -/
theorem detectNext_oneSample (e : Bool) {s : State} (hout : s.out = .released) :
    OneSample e false s (s.detectNext e) := by
  obtain ⟨c, -, hd⟩ | hd | ⟨ph, pk, hd⟩ := s.detectNext_cases e <;> rw [hd]
  · exact .complete s c
  · exact .of_sample (t := { s.noteSample e with present := true }) rfl (by simp [State.level_released hout])
      (.complete _ _)
  · exact .of_sample (t := s.noteSample e) rfl (by simp [State.level_released hout]) (.stop rfl fun _ => hout)

/-! ### Every pseudocode is safe -/

/-- From one suspension to the next. -/
theorem sampleSafe_quiet_wait {q : List Action} (hq : q.all quiet = true) {n : Nat} (hn : 1 ≤ n) (m : List Action)
    {o : LineOut} {taken : Bool} (h : sampleSafe (q ++ .wait n :: m) o taken = true) :
    sampleSafe m (lineAt q 1 o) false = true := by
  induction q generalizing o taken with
  | nil =>
    have hpos : (n == 0) = false := beq_false_of_ne (by omega)
    simpa [sampleSafe, lineAt, hpos] using h
  | cons a q ih =>
    obtain ⟨ha, hq⟩ := Bool.and_eq_true_iff.mp (List.all_cons ▸ hq)
    rw [List.cons_append] at h
    cases a with
    | wait w =>
      obtain rfl : w = 0 := by simpa [quiet] using ha
      exact ih hq h
    | detect | detectNext => cases ha
    | driveLow => exact ih hq (Bool.and_eq_true_iff.mp h).2
    | sample => exact ih hq (Bool.and_eq_true_iff.mp h).2
    | release | setBi | clearSh | accumulate | latchBit | latchByte => exact ih hq h

theorem Stands.sampleSafe {S l : List Action} {c : Nat} {o : LineOut} (h : Stands S c o l)
    (hS : sampleSafe S .released false = true) : sampleSafe l o false = true := by
  induction h with
  | start => exact hS
  | wait _ hq hn ih => exact sampleSafe_quiet_wait hq hn _ ih

/-- Without a sample and without the detector nothing is asked. -/
theorem sampleSafe_of_noSample {l : List Action} (hs : l.all noSample = true) (hp : l.all plain = true) (o : LineOut) :
    sampleSafe l o false = true := by
  induction l generalizing o with
  | nil => rfl
  | cons a l ih =>
    obtain ⟨hsa, hs⟩ := Bool.and_eq_true_iff.mp (List.all_cons ▸ hs)
    obtain ⟨hpa, hp⟩ := Bool.and_eq_true_iff.mp (List.all_cons ▸ hp)
    cases a with
    | sample => cases hsa
    | detect | detectNext => cases hpa
    | driveLow | release | wait | setBi | clearSh | accumulate | latchBit | latchByte => exact ih hs hp _

/-- Each turn of READ_BYTE takes its sample in a tick of its own. -/
theorem sampleSafe_readTurns {p : Config.Params} (hrec : 1 ≤ p.tRbRec) {m : List Action}
    (hm : ∀ o, sampleSafe m o false = true) (l : List Nat) (o : LineOut) :
    sampleSafe (l.flatMap (readTurn p) ++ m) o false = true := by
  induction l generalizing o with
  | nil => exact hm o
  | cons i l ih =>
    have hpos : (p.tRbRec == 0) = false := beq_false_of_ne (by omega)
    simp only [List.flatMap_cons, readTurn, readSlotToSample, List.cons_append, List.nil_append, sampleSafe]
    simp [hpos, ih]

theorem sampleSafe_script {p : Config.Params} (hl : p.Legal) (i : Instr) :
    sampleSafe (script p i) .released false = true := by
  cases i with
  | delay n => rfl
  | writeBit b => rfl
  | readBit => simp [script, readBitScript, readSlotToSample, sampleSafe]
  | writeByte d => exact sampleSafe_of_noSample (noSample_writeByteScript p d) (plain_writeByteScript p d) _
  | readByte =>
    have hrec : 1 ≤ p.tRbRec := by
      unfold Config.Params.Legal at hl
      omega
    exact sampleSafe_readTurns hrec (m := [.latchByte]) (fun _ => rfl) (List.range 8) .released
  | reset => rfl
  | presence => rfl
  | init => simp [script, initScript, resetScript, presenceScript, sampleSafe]
  | decode th tl => rfl

/-- A resumption from the invariant takes at most one sample. -/
theorem State.resume_oneSample {s : State} {i : Instr} (hl : s.params.Legal) (ho : s.opr = some i)
    (h : s.Standing (script s.params i)) (e : Bool) : OneSample e false s (s.resume e) := by
  unfold State.resume
  rw [State.oprScript_eq ho]
  obtain ⟨l, hst⟩ | ⟨here, hd, hat, hout⟩ := h
  · rw [hst.reached.1]
    have hn : .detectNext ∉ l := fun hmem => detectNext_not_mem_script _ _ (hst.suffix.subset hmem)
    exact runActions_oneSample hn e (hst.sampleSafe (sampleSafe_script hl i)) nofun
  · rw [fromOffset_detector hd hat.lt, runActions]
    exact detectNext_oneSample e hout

/-- Settles O55: a waiting tick adds nothing, and a resumption at most one sample. -/
theorem oneSampleATick : Obligations.OneSampleATick := by
  intro s e h
  have hone : OneSample e false s.advanceTime (s.tickStep e) := by
    by_cases hr : s.fsm = .run ∧ s.time + 1 = s.resumeAt
    · obtain ⟨i, ho, -, hst⟩ := h.standing hr.1
      rw [State.tickStep_resume hr.1 hr.2]
      exact State.resume_oneSample (s := s.advanceTime) h.legal ho hst e
    · rw [State.tickStep_waiting hr]
      exact .stop rfl nofun
  obtain ⟨new, hh, hev, hcount, hrel⟩ := hone
  exact ⟨new, hh, hev, hcount, fun ⟨x, hx, hxs⟩ => hrel (.inr (hxs ▸ hx))⟩

end Sys2Proof.Machine

namespace Sys2Proof.Machine

/-! ### The raw word's branch (45_decoder.md R210) -/

/-- The sign pattern: the top five bits are all 1 in the words from 0xF800 on. -/
theorem rawNegative_iff (t : Raw) : rawNegative t = true ↔ 0xF800 ≤ t.toNat := by
  have hlt := t.isLt
  have hmask : (t &&& (0xF800 : Raw)).toNat = t.toNat / 2048 * 2048 := by
    have hones : (0xF800 : Raw) = BitVec.allOnes 16 <<< 11 := by decide
    have hshift : t &&& (0xF800 : Raw) = t >>> 11 <<< 11 := by rw [BitVec.shiftLeft_ushiftRight, ← hones]
    rw [hshift, BitVec.toNat_shiftLeft, BitVec.toNat_ushiftRight, Nat.shiftRight_eq_div_pow, Nat.shiftLeft_eq]
    omega
  have hpattern : (0xF800 : Raw).toNat = 63488 := rfl
  rw [rawNegative, beq_iff_eq, BitVec.toNat_eq, hmask, hpattern]
  omega

/-- The raw word of TH and TL as a number. -/
theorem rawTemp_toNat (th tl : Byte) : (rawTemp th tl).toNat = th.toNat * 256 + tl.toNat := by
  rw [rawTemp, BitVec.toNat_append, Nat.shiftLeft_eq, Nat.mul_comm, Nat.two_pow_add_eq_or_of_lt tl.isLt, Nat.mul_comm]

/-- The two branches of the decoder, in numbers. -/
theorem decodeTemp_eq (th tl : Byte) :
    decodeTemp th tl =
      if 0xF800 ≤ (rawTemp th tl).toNat then f32 true (65536 - (rawTemp th tl).toNat)
      else f32 false (rawTemp th tl).toNat := by
  unfold decodeTemp
  by_cases h : 0xF800 ≤ (rawTemp th tl).toNat
  · rw [if_pos h, if_pos ((rawNegative_iff _).mpr h), rawMagnitude_toNat_of_pos (by omega)]
  · rw [if_neg h, if_neg ((rawNegative_iff _).not.mpr h)]

/-- Settles O57: from 0xF800 on the magnitude is that of the signed word, and below 0x8000 the word is positive. -/
theorem decodeAgreesWithTwosComplement : Obligations.DecodeAgreesWithTwosComplement := by
  intro th tl t ht
  have hraw : rawTemp th tl = t := ht.symm
  have hlt := t.isLt
  have hint := BitVec.toInt_eq_toNat_cond t
  rw [decodeTemp_eq, hraw]
  refine ⟨?_, fun _ hF => if_neg (by omega)⟩
  rintro (hlow | hhigh)
  · rw [if_pos (by omega)] at hint
    rw [if_neg (by omega), hint, decide_eq_false (by omega), Int.natAbs_natCast]
  · rw [if_neg (by omega)] at hint
    have habs : t.toInt.natAbs = 65536 - t.toNat := by omega
    rw [if_pos hhigh, habs, decide_eq_true (by omega)]

/-! ### The encoding is exact (45_decoder.md R212) -/

/-- Three fields side by side, as a number. -/
theorem toNat_fields (neg : Bool) {e : Nat} (he : e < 2 ^ 8) {m : Word} (hm : m.toNat < 2 ^ 23) :
    ((BitVec.ofBool neg).setWidth 32 <<< 31 ||| BitVec.ofNat 32 e <<< 23 ||| m).toNat =
      neg.toNat * 2 ^ 31 + e * 2 ^ 23 + m.toNat := by
  have hsign : ((BitVec.ofBool neg).setWidth 32 <<< 31 : Word).toNat = 2 ^ 31 * neg.toNat := by cases neg <;> rfl
  have hexp : (BitVec.ofNat 32 e <<< 23).toNat = 2 ^ 23 * e := by
    rw [BitVec.toNat_shiftLeft, BitVec.toNat_ofNat, Nat.shiftLeft_eq]
    omega
  have hlow : 2 ^ 23 * e + m.toNat < 2 ^ 31 := by omega
  rw [BitVec.toNat_or, BitVec.toNat_or, hsign, hexp, Nat.or_assoc, ← Nat.two_pow_add_eq_or_of_lt hm,
    ← Nat.two_pow_add_eq_or_of_lt hlow]
  omega

/-- The significand of k, its leading bit at bit 23. -/
theorem significand_bounds {k : Nat} (hpos : 0 < k) (hk : k < 2 ^ 16) :
    k.log2 ≤ 15 ∧ 2 ^ 23 ≤ k * 2 ^ (23 - k.log2) ∧ k * 2 ^ (23 - k.log2) < 2 ^ 24 := by
  have hlog : k.log2 < 16 := (Nat.log2_lt (by omega)).mpr hk
  have hle := Nat.log2_self_le (n := k) (by omega)
  have hlt := Nat.lt_log2_self (n := k)
  refine ⟨by omega, ?_, ?_⟩
  · calc 2 ^ 23 = 2 ^ k.log2 * 2 ^ (23 - k.log2) := by rw [← Nat.pow_add]; congr 1; omega
      _ ≤ k * 2 ^ (23 - k.log2) := Nat.mul_le_mul_right _ hle
  · calc k * 2 ^ (23 - k.log2) < 2 ^ (k.log2 + 1) * 2 ^ (23 - k.log2) :=
        Nat.mul_lt_mul_of_pos_right hlt (Nat.two_pow_pos _)
      _ = 2 ^ 24 := by rw [← Nat.pow_add]; congr 1; omega

/-- The word of k / 16 or -k / 16, as a number: sign, exponent, and the significand without its leading bit. -/
theorem f32_toNat (neg : Bool) {k : Nat} (hpos : 0 < k) (hk : k < 2 ^ 16) :
    (f32 neg k).toNat = neg.toNat * 2 ^ 31 + (k.log2 + 123) * 2 ^ 23 + (k * 2 ^ (23 - k.log2) - 2 ^ 23) := by
  obtain ⟨hlog, hge, hlt⟩ := significand_bounds hpos hk
  have hfrac : (BitVec.ofNat 32 k <<< (23 - k.log2) &&& 0x7FFFFF).toNat = k * 2 ^ (23 - k.log2) - 2 ^ 23 := by
    have hmask : (0x7FFFFF : Word).toNat = 2 ^ 23 - 1 := rfl
    rw [BitVec.toNat_and, hmask, Nat.and_two_pow_sub_one_eq_mod, BitVec.toNat_shiftLeft, BitVec.toNat_ofNat,
      Nat.shiftLeft_eq, Nat.mod_eq_of_lt (a := k) (by omega)]
    omega
  rw [f32, if_neg (by omega), toNat_fields neg (by omega) (by rw [hfrac]; omega), hfrac]
  rfl

/-- Settles O56: the fields are a quotient and remainders of the word, and the powers of 2 cancel. -/
theorem decodedTemperatureIsExact : Obligations.DecodedTemperatureIsExact := by
  intro th tl temp k neg htemp hk
  have hth := th.isLt
  have htl := tl.isLt
  have hword : decodeTemp th tl = f32 neg k := by
    rw [decodeTemp_eq, rawTemp_toNat, ← htemp]
    by_cases h : 0xF800 ≤ temp
    · obtain ⟨rfl, rfl⟩ := (if_pos h).mp hk
      exact if_pos h
    · obtain ⟨rfl, rfl⟩ := (if_neg h).mp hk
      exact if_neg h
  rw [hword]
  refine ⟨fun h => by rw [f32, if_pos h], fun hpos => ?_⟩
  have hk16 : k < 2 ^ 16 := by
    split at hk <;> omega
  obtain ⟨hlog, hge, hlt⟩ := significand_bounds hpos hk16
  have hnat := f32_toNat neg hpos hk16
  have hsign : (f32 neg k).getLsbD 31 = decide (2 ^ 31 ≤ (f32 neg k).toNat) := by
    have hmsb := BitVec.msb_eq_decide (f32 neg k)
    rwa [BitVec.msb_eq_getLsbD_last] at hmsb
  have hexp : ((f32 neg k).extractLsb' 23 8).toNat = k.log2 + 123 := by
    rw [toNat_extractLsb'_eq_div_mod, hnat]
    cases neg <;> simp <;> omega
  have hfrac : ((f32 neg k).extractLsb' 0 23).toNat = k * 2 ^ (23 - k.log2) - 2 ^ 23 := by
    rw [toNat_extractLsb'_eq_div_mod, hnat]
    cases neg <;> simp <;> omega
  refine ⟨?_, by omega, by omega, ?_⟩
  · rw [hsign, hnat]
    cases neg <;> simp <;> omega
  · have hpow : 2 ^ (23 - k.log2) * 2 ^ (k.log2 + 123) * 16 = 2 ^ 150 := by
      rw [← Nat.pow_add, show 23 - k.log2 + (k.log2 + 123) = 146 by omega]
      norm_num
    rw [hexp, hfrac, Nat.add_sub_cancel' hge, Nat.mul_assoc k, Nat.mul_assoc k, hpow]

end Sys2Proof.Machine

namespace Sys2Proof.Machine

/-! ### The detector's samples (43_init.md R166, R167) -/

/-- The samples of the levels xs, one a tick from t + 1 on. -/
def sampleEvents (t : Word) (xs : List Bool) : List Event :=
  xs.zipIdx.map fun x => .sample (t + 1 + BitVec.ofNat 32 x.2) x.1

theorem sampleEvents_concat (t : Word) (xs : List Bool) (e : Bool) :
    sampleEvents t (xs ++ [e]) = sampleEvents t xs ++ [.sample (t + 1 + BitVec.ofNat 32 xs.length) e] := by
  simp [sampleEvents, List.zipIdx_append]

theorem samplesOf_sampleEvents (t : Word) (xs : List Bool) :
    samplesOf (sampleEvents t xs) = xs.zipIdx.map fun x => (t + 1 + BitVec.ofNat 32 x.2, x.1) := by
  simp [samplesOf, sampleEvents, List.filterMap_map]

/-- The detector, due to start after u, once it has sampled the levels xs. -/
def State.detecting (u : State) (ph : Phase) (pk : Nat) (xs : List Bool) : State :=
  { u with
    out := .released, ph := ph, pk := pk, c := u.c + BitVec.ofNat 16 xs.length,
    time := u.time + BitVec.ofNat 32 xs.length,
    history := (sampleEvents u.time xs).reverse ++ u.advanceTime.release.history }

/-- At the next tick the operation releases the line, where it is not, and starts its detector. -/
structure DetectorDue (u : State) (i : Instr) : Prop where
  run : u.fsm = .run
  opr : u.opr = some i
  next : u.resumeAt = u.time + 1
  start : detectStart (script u.params i) = some u.c.toNat
  tick (e : Bool) : u.tickStep e = u.advanceTime.release.detectFirst e

/-- A sample more. -/
theorem State.detecting_concat (u : State) (ph ph' : Phase) (pk pk' : Nat) (xs : List Bool) (e : Bool) :
    { (u.detecting ph pk xs).advanceTime.noteSample e with
      ph := ph', pk := pk', c := (u.detecting ph pk xs).advanceTime.c + 1 } = u.detecting ph' pk' (xs ++ [e]) := by
  simp [State.detecting, State.noteSample, State.level, State.advanceTime, State.setTime, sampleEvents_concat,
    BitVec.ofNat_add, BitVec.add_assoc]
  exact BitVec.add_comm _ _

/-- A turn of phase A. -/
theorem State.detecting_high (u : State) (ph : Phase) (pk : Nat) (xs : List Bool) (e : Bool) :
    (u.detecting ph pk xs).advanceTime.detectHigh e =
      if e then u.detecting ph (pk + 1) (xs ++ [true]) else u.detecting .b 1 (xs ++ [false]) := by
  have hlevel : (u.detecting ph pk xs).advanceTime.level e = e := rfl
  rw [State.detectHigh_eq, hlevel]
  cases e with
  | true => exact State.detecting_concat u ph ph pk (pk + 1) xs true
  | false => exact State.detecting_concat u ph .b pk 1 xs false

/-- A turn of phase B that finds a 0. -/
theorem State.detecting_low (u : State) (ph : Phase) (pk : Nat) (xs : List Bool) :
    (u.detecting ph pk xs).advanceTime.detectLow false = u.detecting ph (pk + 1) (xs ++ [false]) := by
  have hlevel : (u.detecting ph pk xs).advanceTime.level false = false := rfl
  rw [State.detectLow_eq, hlevel]
  exact State.detecting_concat u ph ph pk (pk + 1) xs false

/-- The first tick of the detector. -/
theorem DetectorDue.first {u : State} {i : Instr} (h : DetectorDue u i) (e : Bool) :
    u.tickStep e = if e then u.detecting .a 1 [true] else u.detecting .b 1 [false] := by
  have hstart : { u.advanceTime.release with ph := .a, pk := 0 } = (u.detecting .a 0 []).advanceTime := by
    simp [State.detecting, State.advanceTime, State.setTime, sampleEvents]
  rw [h.tick, State.detectFirst, hstart]
  exact State.detecting_high u .a 0 [] e

/-- A later tick of the detector. -/
theorem DetectorDue.later {u : State} {i : Instr} (h : DetectorDue u i) {xs : List Bool} (hpos : 1 ≤ xs.length)
    (hb : u.c.toNat + xs.length < 65536) (ph : Phase) (pk : Nat) (e : Bool) :
    (u.detecting ph pk xs).tickStep e = (u.detecting ph pk xs).advanceTime.detectNext e := by
  have hc : (u.detecting ph pk xs).c.toNat = u.c.toNat + xs.length := by
    simp only [State.detecting, BitVec.toNat_add, BitVec.toNat_ofNat]
    omega
  have hnext : (u.detecting ph pk xs).time + 1 = (u.detecting ph pk xs).resumeAt := by
    have hwide : (u.c + BitVec.ofNat 16 xs.length).setWidth 32 = u.c.setWidth 32 + BitVec.ofNat 32 xs.length := by
      apply BitVec.eq_of_toNat_eq
      simp only [BitVec.toNat_setWidth, BitVec.toNat_add, BitVec.toNat_ofNat]
      omega
    have hstart : u.start + u.c.setWidth 32 = u.time + 1 := h.next
    simp only [State.resumeAt, State.detecting]
    rw [hwide, ← BitVec.add_assoc, hstart]
    exact add_right_comm _ _ _
  rw [State.tickStep_resume (s := u.detecting ph pk xs) h.run hnext]
  show runActions e (fromOffset (u.detecting ph pk xs).oprScript (u.detecting ph pk xs).c.toNat) _ = _
  have hleft : fromOffset (script (u.detecting ph pk xs).params i) (u.c.toNat + xs.length) = [.detectNext] :=
    fromOffset_detector h.start (by omega)
  rw [State.oprScript_eq (s := u.detecting ph pk xs) h.opr, hc, hleft, runActions]

/-- In phase A below its bound. -/
theorem DetectorDue.later_high {u : State} {i : Instr} (h : DetectorDue u i) {xs : List Bool} (hpos : 1 ≤ xs.length)
    (hb : u.c.toNat + xs.length < 65536) {pk : Nat} (hpk : pk ≠ u.params.nPresHigh) (e : Bool) :
    (u.detecting .a pk xs).tickStep e =
      if e then u.detecting .a (pk + 1) (xs ++ [true]) else u.detecting .b 1 (xs ++ [false]) := by
  rw [h.later hpos hb, ← State.detecting_high]
  exact if_neg hpk

/-- In phase B below its bound. -/
theorem DetectorDue.later_low {u : State} {i : Instr} (h : DetectorDue u i) {xs : List Bool} (hpos : 1 ≤ xs.length)
    (hb : u.c.toNat + xs.length < 65536) {pk : Nat} (hpk : pk ≠ u.params.nPresLow) (e : Bool) :
    (u.detecting .b pk xs).tickStep e = (u.detecting .b pk xs).advanceTime.detectLow e := by
  rw [h.later hpos hb]
  exact if_neg hpk

/-! ### The presence law (43_init.md R167) -/

section

variable {u : State} {i : Instr}

/-- Ones alone keep the detector in phase A. -/
theorem DetectorDue.ticks_ones (h : DetectorDue u i) (hb : u.c.toNat + u.params.nPresHigh ≤ 65535) {n : Nat} (hn : 1 ≤ n)
    (hle : n ≤ u.params.nPresHigh) :
    u.ticks (List.replicate n true) = u.detecting .a n (List.replicate n true) := by
  induction n, hn using Nat.le_induction with
  | base => exact h.first true
  | succ n hn ih =>
    rw [List.replicate_succ', State.ticks_append, ih (by omega), State.ticks_cons, State.ticks_nil,
      h.later_high (by simpa using hn) (by simp; omega) (by omega), if_pos rfl]

/-- Zeros after fewer than N_PRES_HIGH ones keep the detector in phase B. -/
theorem DetectorDue.ticks_zeros (h : DetectorDue u i) (hb : u.c.toNat + u.params.nPresHigh + u.params.nPresLow ≤ 65536)
    {m n : Nat} (hm : m < u.params.nPresHigh) (hn : 1 ≤ n) (hle : n ≤ u.params.nPresLow) :
    u.ticks (List.replicate m true ++ List.replicate n false) =
      u.detecting .b n (List.replicate m true ++ List.replicate n false) := by
  induction n, hn using Nat.le_induction with
  | base =>
    obtain rfl | hpos := Nat.eq_zero_or_pos m
    · exact h.first false
    · rw [State.ticks_append, h.ticks_ones (by omega) hpos hm.le]
      exact (h.later_high (by simp; omega) (by simp; omega) (by omega) false).trans (if_neg (by simp))
  | succ n hn ih =>
    rw [List.replicate_succ', ← List.append_assoc, State.ticks_append, ih (by omega), State.ticks_cons, State.ticks_nil,
      h.later_low (by simp; omega) (by simp; omega) (by omega), State.detecting_low]

/-- The levels on which the detector goes on: ones, at most N_PRES_HIGH, or fewer and then zeros, at most N_PRES_LOW. -/
def GoesOn (p : Config.Params) (xs : List Bool) : Prop :=
  (∃ n, n ≤ p.nPresHigh ∧ xs = List.replicate n true) ∨
    ∃ m n, m < p.nPresHigh ∧ n ≤ p.nPresLow ∧ xs = List.replicate m true ++ List.replicate n false

/-- What the detector goes on after, it went on after before. -/
theorem GoesOn.take {p : Config.Params} {xs : List Bool} (h : GoesOn p xs) (k : Nat) : GoesOn p (xs.take k) := by
  obtain ⟨n, hn, rfl⟩ | ⟨m, n, hm, hn, rfl⟩ := h
  · exact .inl ⟨min k n, by omega, List.take_replicate ..⟩
  · refine .inr ⟨min k m, min (k - m) n, by omega, by omega, ?_⟩
    rw [List.take_append, List.take_replicate, List.take_replicate, List.length_replicate]

theorem DetectorDue.ticks_goesOn (h : DetectorDue u i)
    (hb : u.c.toNat + u.params.nPresHigh + u.params.nPresLow ≤ 65536) (hlow : 1 ≤ u.params.nPresLow) {xs : List Bool}
    (hxs : GoesOn u.params xs) (hpos : 0 < xs.length) : ∃ ph pk, u.ticks xs = u.detecting ph pk xs := by
  obtain ⟨n, hn, rfl⟩ | ⟨m, n, hm, hn, rfl⟩ := hxs
  · exact ⟨_, _, h.ticks_ones (by omega) (by simp at hpos; omega) hn⟩
  · obtain rfl | hnpos := Nat.eq_zero_or_pos n
    · simp only [List.replicate_zero, List.append_nil, List.length_replicate] at hpos ⊢
      exact ⟨_, _, h.ticks_ones (by omega) hpos hm.le⟩
    · exact ⟨_, _, h.ticks_zeros hb hm hnpos hn⟩

end

/-- The levels es decide the presence law: with the code e, and with PRESENT = found (43_init.md R167). -/
def Decides (p : Config.Params) (es : List Bool) (e : ErrCode) (found : Bool) : Prop :=
  ((∃ x, es = List.replicate p.nPresHigh true ++ [x]) ∧ e = .nopresHigh ∧ found = false) ∨
    ((∃ i len, i < p.nPresHigh ∧ 1 ≤ len ∧ len + 1 ≤ p.nPresLow ∧
      es = List.replicate i true ++ List.replicate len false ++ [true]) ∧ e = .none ∧ found = true) ∨
    ((∃ i x, i < p.nPresHigh ∧ es = List.replicate i true ++ List.replicate p.nPresLow false ++ [x]) ∧
      e = .nopresLow ∧ found = false)

/-- Before its last level the detector goes on. -/
theorem Decides.goesOn {p : Config.Params} {es : List Bool} {e : ErrCode} {found : Bool} (h : Decides p es e found) :
    ∃ xs x, es = xs ++ [x] ∧ GoesOn p xs := by
  obtain ⟨⟨x, rfl⟩, -⟩ | ⟨⟨m, n, hm, -, hn, rfl⟩, -⟩ | ⟨⟨m, x, hm, rfl⟩, -⟩ := h
  · exact ⟨_, x, rfl, .inl ⟨_, le_rfl, rfl⟩⟩
  · exact ⟨_, true, rfl, .inr ⟨m, n, hm, by omega, rfl⟩⟩
  · exact ⟨_, x, rfl, .inr ⟨m, _, hm, le_rfl, rfl⟩⟩

/-- The state at the completion of the detector. -/
def State.detected (u : State) (ph : Phase) (pk : Nat) (xs : List Bool) (e : ErrCode) (found : Bool) : State :=
  if found then { (u.detecting ph pk xs).advanceTime.noteSample true with present := true }.complete e
  else (u.detecting ph pk xs).advanceTime.complete e

/-- The last level completes the operation as the law says. -/
theorem DetectorDue.ticks_decides {u : State} {i : Instr} (h : DetectorDue u i)
    (hb : u.c.toNat + u.params.nPresHigh + u.params.nPresLow ≤ 65536)
    (hpos : 1 ≤ u.params.nPresHigh ∧ 1 ≤ u.params.nPresLow) {xs : List Bool} {x : Bool} {e : ErrCode} {found : Bool}
    (hd : Decides u.params (xs ++ [x]) e found) :
    (found = true → x = true) ∧ ∃ ph pk, u.ticks (xs ++ [x]) = u.detected ph pk xs e found := by
  obtain ⟨⟨y, hxs⟩, rfl, rfl⟩ | ⟨⟨m, n, hm, hn1, hn, hxs⟩, rfl, rfl⟩ | ⟨⟨m, y, hm, hxs⟩, rfl, rfl⟩ := hd
  · obtain ⟨rfl, -⟩ := List.append_inj' hxs rfl
    refine ⟨nofun, .a, u.params.nPresHigh, ?_⟩
    rw [State.ticks_append, h.ticks_ones (by omega) hpos.1 le_rfl, State.ticks_cons, State.ticks_nil,
      h.later (by simpa using hpos.1) (by simp; omega)]
    exact if_pos rfl
  · obtain ⟨rfl, hx⟩ := List.append_inj' hxs rfl
    obtain rfl : x = true := List.singleton_inj.mp hx
    refine ⟨fun _ => rfl, .b, n, ?_⟩
    rw [State.ticks_append, h.ticks_zeros hb hm hn1 (by omega), State.ticks_cons, State.ticks_nil,
      h.later_low (by simp; omega) (by simp; omega) (by omega), State.detectLow_eq]
    exact if_pos rfl
  · obtain ⟨rfl, -⟩ := List.append_inj' hxs rfl
    refine ⟨nofun, .b, u.params.nPresLow, ?_⟩
    rw [State.ticks_append, h.ticks_zeros hb hm hpos.2 le_rfl, State.ticks_cons, State.ticks_nil,
      h.later (by simp; omega) (by simp; omega)]
    exact if_pos rfl

/-! ### The law, from the state in which the command was issued -/

/-- n ticks after its acceptance in s, u has taken no sample and has PRESENT cleared. -/
structure RunningFrom (s u : State) (n : Nat) : Prop where
  params : u.params = s.params
  ovr : u.ovr = false
  present : u.present = false
  gate : u.gate = s.gate
  rxdata : u.rxdata = s.rxdata
  temp : u.temp = s.temp
  time : u.time = s.time + BitVec.ofNat 32 n
  div : u.div = s.div
  inputs : u.inputs = s.inputs
  sampled : Sampled s u []

/-- The detector's samples in the history. -/
theorem State.detecting_sampled (u : State) (ph : Phase) (pk : Nat) (xs : List Bool) :
    Sampled u (u.detecting ph pk xs) (xs.zipIdx.map fun x => (u.time + 1 + BitVec.ofNat 32 x.2, x.1)) := by
  have hrelease : Sampled u u.advanceTime.release [] := Sampled.setOut u.advanceTime .released
  refine hrelease.trans ⟨(sampleEvents u.time xs).reverse, rfl, ?_⟩
  rw [List.reverse_reverse, samplesOf_sampleEvents]

/-- At the completion the history has the samples of all levels, but for the last of a failure. -/
theorem State.detected_sampled (u : State) (ph : Phase) (pk : Nat) (xs : List Bool) (e : ErrCode) (found : Bool) :
    Sampled u (u.detected ph pk xs e found)
      ((if found then xs ++ [true] else xs).zipIdx.map fun x => (u.time + 1 + BitVec.ofNat 32 x.2, x.1)) := by
  cases found with
  | true =>
    have hlast := congrArg State.history (u.detecting_concat ph ph pk pk xs true)
    have hhist : ({ (u.detecting ph pk xs).advanceTime.noteSample true with present := true } : State).history =
        (u.detecting ph pk (xs ++ [true])).history := hlast
    have hall := (u.detecting_sampled ph pk (xs ++ [true])).trans (.of_history_eq hhist)
    rw [List.append_nil] at hall
    have hdone := hall.trans (Sampled.complete _ e)
    rwa [List.append_nil] at hdone
  | false =>
    have hdone := (u.detecting_sampled ph pk xs).trans (Sampled.complete (u.detecting ph pk xs).advanceTime e)
    rwa [List.append_nil] at hdone

/-- At the completion all is as it was n ticks before, but for what a completion writes. -/
theorem RunningFrom.detected {s u : State} {n : Nat} (h : RunningFrom s u n) (ph : Phase) (pk : Nat) (xs : List Bool)
    (e : ErrCode) (found : Bool) :
    CompletedFrom s (u.detected ph pk xs e found) e (n + (xs.length + 1)) ∧
      (u.detected ph pk xs e found).present = found ∧ (u.detected ph pk xs e found).rxdata = s.rxdata ∧
      (u.detected ph pk xs e found).temp = s.temp := by
  have htime : u.time + BitVec.ofNat 32 xs.length + 1 = s.time + BitVec.ofNat 32 (n + (xs.length + 1)) := by
    rw [h.time, BitVec.ofNat_add, BitVec.ofNat_add, ← BitVec.add_assoc, ← BitVec.add_assoc]
    rfl
  cases found with
  | true =>
    refine ⟨⟨rfl, by simp [State.detected], rfl, rfl, ?_, ?_, ?_, ?_, ?_, ?_⟩, ?_, ?_, ?_⟩
    all_goals simp [State.detected, State.detecting, h.params, h.ovr, h.gate, h.rxdata, h.temp, h.div, h.inputs]
    exact htime
  | false =>
    refine ⟨⟨rfl, by simp [State.detected], rfl, rfl, ?_, ?_, ?_, ?_, ?_, ?_⟩, ?_, ?_, ?_⟩
    all_goals
      simp [State.detected, State.detecting, h.params, h.ovr, h.gate, h.rxdata, h.temp, h.div, h.inputs, h.present]
    exact htime

/-- The presence law of an operation whose detector starts n ticks after its acceptance. -/
theorem DetectorDue.law {s u : State} {i : Instr} {n : Nat} (h : DetectorDue u i) (hs : RunningFrom s u n)
    (hl : s.params.Legal) {es : List Bool} {e : ErrCode} {found : Bool} (hd : Decides s.params es e found) :
    (∀ k, 0 < k → k < es.length → (u.ticks (es.take k)).fsm = .run ∧ (u.ticks (es.take k)).out = .released) ∧
      CompletedFrom s (u.ticks es) e (n + es.length) ∧ (u.ticks es).present = found ∧
      (u.ticks es).rxdata = s.rxdata ∧ (u.ticks es).temp = s.temp ∧
      Sampled s (u.ticks es)
        ((if found then es else es.dropLast).zipIdx.map fun x => (s.time + 1 + BitVec.ofNat 32 (n + x.2), x.1)) := by
  obtain ⟨xs, x, rfl, hgo⟩ := hd.goesOn
  rw [← hs.params] at hl hd hgo
  have hb := detector_bound hl h.start
  have hpos : 1 ≤ u.params.nPresHigh ∧ 1 ≤ u.params.nPresLow := by
    unfold Config.Params.Legal at hl
    omega
  obtain ⟨hlast, ph, pk, hticks⟩ := h.ticks_decides hb hpos hd
  rw [hticks, List.length_append, List.length_singleton]
  obtain ⟨hc, hpres, hrx, htemp⟩ := hs.detected ph pk xs e found
  refine ⟨fun k hk0 hk => ?_, hc, hpres, hrx, htemp, ?_⟩
  · rw [List.take_append_of_le_length (by omega)]
    obtain ⟨ph', pk', hk'⟩ := h.ticks_goesOn hb hpos.2 (hgo.take k) (by rw [List.length_take]; omega)
    rw [hk']
    exact ⟨h.run, rfl⟩
  · have hlevels : (if found then xs ++ [x] else (xs ++ [x]).dropLast) = if found then xs ++ [true] else xs := by
      cases found with
      | true => rw [hlast rfl, if_pos rfl, if_pos rfl]
      | false => simp
    have htime (k : Nat) : u.time + 1 + BitVec.ofNat 32 k = s.time + 1 + BitVec.ofNat 32 (n + k) := by
      rw [hs.time, BitVec.ofNat_add, ← BitVec.add_assoc]
      congr 1
      exact add_right_comm _ _ _
    have hall := hs.sampled.trans (u.detected_sampled ph pk xs e found)
    simp only [htime] at hall
    rwa [hlevels]

/-- Settles O41: PRESENCE's detector starts at its first tick. -/
theorem presenceLaw : Obligations.PresenceLaw := by
  intro s hl hidle hout
  have hdue : DetectorDue (s.clearFlags.clearPresent.begin .presence) .presence := by
    have hdue := Due.begin s.clearFlags.clearPresent .presence
    refine ⟨rfl, rfl, hdue.next, rfl, fun e => ?_⟩
    rw [hdue.tick, State.release_released (s := (s.clearFlags.clearPresent.begin .presence).advanceTime) hout]
    rfl
  have hrun : RunningFrom s (s.clearFlags.clearPresent.begin .presence) 0 :=
    ⟨rfl, rfl, rfl, rfl, rfl, rfl, by simp, rfl, rfl, .of_history_eq rfl⟩
  refine ⟨_, exec_idle hidle .presence, fun es e found hd => ?_⟩
  obtain ⟨hgo, hlaw⟩ := hdue.law hrun hl hd
  simp only [Nat.zero_add] at hlaw
  refine ⟨fun k hk => ?_, hlaw⟩
  obtain rfl | hpos := Nat.eq_zero_or_pos k
  · exact ⟨rfl, hout⟩
  · exact hgo k hpos hk

end Sys2Proof.Machine

namespace Sys2Proof.Machine

/-! ### Segments before the detector (43_init.md R170) -/

/-- During a segment the operation runs, with the line as the segment's actions have made it. -/
theorem Due.ticks_running {u : State} {l m : List Action} {k : Nat} (h : Due u (l ++ .wait k :: m))
    (hl : l.all quiet = true) (hc : u.c.toNat + k < 2 ^ 16) {es : List Bool} (hpos : 0 < es.length)
    (hes : es.length ≤ k) : (u.ticks es).fsm = .run ∧ (u.ticks es).out = lineAt l 1 u.out := by
  obtain ⟨e, es, rfl⟩ := List.exists_cons_of_length_pos hpos
  rw [List.length_cons] at hes
  obtain ⟨-, -, -, -, -, -, -, -, hf, -⟩ := effects_frame e l u.advanceTime
  rw [h.within hl (by omega) hc e es (by omega)]
  exact ⟨hf.trans h.run, effects_out e hl u.advanceTime⟩

theorem effects_rxdata {l : List Action} (h : l.all (fun a => !latches a) = true) (env : Bool) (s : State) :
    (effects env l s).rxdata = s.rxdata := by
  induction l generalizing s with
  | nil => rfl
  | cons a l ih =>
    obtain ⟨ha, hl⟩ := Bool.and_eq_true_iff.mp (List.all_cons ▸ h)
    rw [effects_cons, ih hl, effect_rxdata (by simpa using ha)]

theorem Sampled.effects {l : List Action} (h : l.all noSample = true) (env : Bool) (s : State) :
    Sampled s (effects env l s) [] := by
  induction l generalizing s with
  | nil => exact .refl s
  | cons a l ih =>
    obtain ⟨ha, hl⟩ := Bool.and_eq_true_iff.mp (List.all_cons ▸ h)
    exact (Sampled.effect ha env s).trans (ih hl _)

/-- Past a segment that neither samples nor latches. -/
theorem RunningFrom.segment {s u : State} {n k : Nat} {l m : List Action} (hs : RunningFrom s u n)
    (h : Due u (l ++ .wait k :: m)) (hl : l.all quiet = true) (hk : 1 ≤ k) (hc : u.c.toNat + k < 2 ^ 16)
    (hsam : l.all noSample = true) (hlatch : l.all (fun a => !latches a) = true) {es : List Bool} (hes : es.length = k) :
    RunningFrom s (u.ticks es) (n + k) ∧ Due (u.ticks es) m ∧ (u.ticks es).out = lineAt l 1 u.out ∧
      (u.ticks es).c.toNat = u.c.toNat + k ∧ (u.ticks es).opr = u.opr := by
  obtain ⟨e, es, rfl⟩ := List.exists_cons_of_length_pos (l := es) (by omega)
  obtain ⟨hticks, hdue⟩ := h.segment hl hk hc (e := e) (by simpa using hes)
  obtain ⟨hp, -, hpres, hovr, -, hgate, htemp, -, -, hopr, -, hcc, -, -, hdiv, -, hin, -⟩ :=
    effects_frame e l u.advanceTime
  have hrx := effects_rxdata hlatch e u.advanceTime
  have hadv : Sampled u u.advanceTime [] := .of_history_eq rfl
  rw [hticks] at hdue ⊢
  refine ⟨⟨hp.trans hs.params, hovr.trans hs.ovr, hpres.trans hs.present, hgate.trans hs.gate, hrx.trans hs.rxdata,
    htemp.trans hs.temp, ?_, hdiv.trans hs.div, hin.trans hs.inputs, ?_⟩, hdue, effects_out e hl u.advanceTime, ?_,
    hopr⟩
  · rw [State.setTime_time, hs.time, BitVec.ofNat_add, BitVec.add_assoc]
  · exact ((hs.sampled.trans hadv).trans (Sampled.effects hsam e _)).trans (.of_history_eq rfl)
  · rw [State.setTime_c, State.suspend_c, hcc, State.advanceTime_c, BitVec.toNat_add, BitVec.toNat_ofNat]
    omega

/-- The operation runs the reset pulse of INIT, its first low ticks and the rest, and then the detector is due. -/
theorem initScript_ticks {s : State} (hl : s.params.Legal) :
    (∀ (pre : List Bool) (o : Nat), pre.length = o + 1 → o < s.params.tRstLow + s.params.tRstWait →
      ((s.clearFlags.clearPresent.begin .init).ticks pre).fsm = .run ∧
        ((s.clearFlags.clearPresent.begin .init).ticks pre).out = if o < s.params.tRstLow then .low else .released) ∧
    ∀ pre : List Bool, pre.length = s.params.tRstLow + s.params.tRstWait →
      DetectorDue ((s.clearFlags.clearPresent.begin .init).ticks pre) .init ∧
        RunningFrom s ((s.clearFlags.clearPresent.begin .init).ticks pre) pre.length := by
  have hlow : 1 ≤ s.params.tRstLow ∧ s.params.tRstLow + s.params.tRstWait ≤ 65535 := by
    unfold Config.Params.Legal at hl
    omega
  have hstart : RunningFrom s (s.clearFlags.clearPresent.begin .init) 0 :=
    ⟨rfl, rfl, rfl, rfl, rfl, rfl, by simp, rfl, rfl, .of_history_eq rfl⟩
  have hdue : Due (s.clearFlags.clearPresent.begin .init)
      ([.driveLow] ++ .wait s.params.tRstLow :: ([.release] ++ .wait s.params.tRstWait :: [.detect])) :=
    Due.begin s.clearFlags.clearPresent .init
  have hzero : (s.clearFlags.clearPresent.begin .init).c.toNat = 0 := rfl
  have pulse (es : List Bool) (hes : es.length = s.params.tRstLow) :=
    hstart.segment hdue rfl hlow.1 (by omega) rfl rfl hes
  constructor
  · intro pre o hpre ho
    by_cases hlt : o < s.params.tRstLow
    · rw [if_pos hlt]
      exact hdue.ticks_running rfl (by omega) (by omega) (by omega)
    · obtain ⟨-, hdue', -, hc, -⟩ := pulse (pre.take s.params.tRstLow) (by rw [List.length_take]; omega)
      rw [if_neg hlt, ← List.take_append_drop s.params.tRstLow pre, State.ticks_append]
      exact hdue'.ticks_running rfl (by omega) (by rw [List.length_drop]; omega) (by rw [List.length_drop]; omega)
  · intro pre hpre
    obtain ⟨hrun, hdue', -, hc, hopr⟩ := pulse (pre.take s.params.tRstLow) (by rw [List.length_take]; omega)
    rw [hpre, ← List.take_append_drop s.params.tRstLow pre, State.ticks_append]
    rw [Nat.zero_add] at hrun
    obtain hnone | hpos := Nat.eq_zero_or_pos s.params.tRstWait
    · have hdrop : pre.drop s.params.tRstLow = [] := List.drop_eq_nil_of_le (by omega)
      rw [hdrop, State.ticks_nil, hnone, Nat.add_zero]
      rw [hnone] at hdue'
      refine ⟨⟨hdue'.run, hopr, hdue'.next, ?_, fun e => hdue'.tick e⟩, hrun⟩
      rw [hrun.params, hc, hzero, script, detectStart_initScript, Config.Params.resetPart, hnone, Nat.zero_add,
        Nat.add_zero]
    · obtain ⟨hrun', hdue'', hrel, hc', hopr'⟩ := hrun.segment (es := pre.drop s.params.tRstLow) hdue' rfl hpos
        (by omega) rfl rfl (by rw [List.length_drop]; omega)
      refine ⟨⟨hdue''.run, hopr'.trans hopr, hdue''.next, ?_, fun e => ?_⟩, hrun'⟩
      · rw [hrun'.params, hc', hc, hzero, script, detectStart_initScript, Config.Params.resetPart, Nat.zero_add]
      · rw [hdue''.tick, State.release_released (s := State.advanceTime _) hrel]
        rfl

/-- Settles O42: the reset pulse brings INIT to its detector. -/
theorem initLaw : Obligations.InitLaw := by
  intro s hl hidle hout
  obtain ⟨hpulse, hdetector⟩ := initScript_ticks hl
  refine ⟨_, exec_idle hidle .init, hpulse, fun pre es e found hpre hd => ?_⟩
  obtain ⟨hdue, hrun⟩ := hdetector pre hpre
  simp only [State.accept, State.ticks_append]
  exact hdue.law hrun hl hd

end Sys2Proof.Machine
